-- ==== Sys2Proof/Word.lean ====
section
/-! DEFINITION. The two word types of KRC: a byte (a memory cell, a field element, a symbol byte) and a 32-bit word (a register, a
command word, a random draw), spec/10_state R22, spec/30_encoding R100. -/

namespace Sys2Proof

/-- One byte of a memory; also one field element (R13) or one symbol byte (R154). -/
abbrev Byte := BitVec 8

/-- One 32-bit word: a register (R22), a command word (R100) or a draw of the random source (R12). -/
abbrev Word := BitVec 32

end Sys2Proof
end

