-- ==== Sys2Proof/Syntax.lean ====
section
/-! DEFINITION. The eleven commands of KRC (spec/30_encoding R107, one constructor per row of spec/opcode_table.json), with the
operand fields of R102-R106 as the word carries them: unsigned, unscaled. -/

namespace Sys2Proof

/-- One command of the KRC command set version 1 (R2, R107). FLD is the 2-bit field code of R103; code 3 is ill-formed
(WellFormed.lean). -/
inductive Instr where
  /-- NOP, format N (R130) -/
  | nop
  /-- INIT, format N (R131) -/
  | init
  /-- GF.ADD FLD, A, B, format F (R155) -/
  | gfAdd (fld : BitVec 2) (a b : Byte)
  /-- GF.MUL FLD, A, B, format F (R156) -/
  | gfMul (fld : BitVec 2) (a b : Byte)
  /-- GF.INV FLD, A, format F with B = 0 (R157) -/
  | gfInv (fld : BitVec 2) (a : Byte)
  /-- GF.AXPY DST, COEFF, SRC, format X (R158); the fields in the word's order -/
  | gfAxpy (coeff dst src : Byte)
  /-- GEN.DENSE, format N (R186) -/
  | genDense
  /-- GEN.SPARSE, format N (R187) -/
  | genSparse
  /-- ENC.WRITE, format N (R200) -/
  | encWrite
  /-- ENC.SETDENS IMM16, format I (R205) -/
  | encSetdens (imm : BitVec 16)
  /-- DEC.READ, format N (R220) -/
  | decRead
deriving DecidableEq, Repr

end Sys2Proof
end

