-- ==== Sys2Proof/WellFormed.lean ====
section
/-! DEFINITION. Which terms of Instr are commands: the field code of GF.ADD, GF.MUL and GF.INV names a field (spec/30_encoding R107:
"FLD ≠ 3"). Ranges of element operands and indices are checked when the command runs (R106, R272), not here. -/

namespace Sys2Proof

/-- The field codes that name a field: 0 = GF(2), 1 = GF(2^4), 2 = GF(2^8) (R32). -/
def fieldCodeOk (fld : BitVec 2) : Bool := fld != 3#2

/-- A command whose word is not illegal by R108: FLD ≠ 3 where the format has FLD. -/
def Instr.wellFormed : Instr → Bool
  | .gfAdd fld _ _ => fieldCodeOk fld
  | .gfMul fld _ _ => fieldCodeOk fld
  | .gfInv fld _ => fieldCodeOk fld
  | .nop => true
  | .init => true
  | .gfAxpy _ _ _ => true
  | .genDense => true
  | .genSparse => true
  | .encWrite => true
  | .encSetdens _ => true
  | .decRead => true

end Sys2Proof
end

