-- ==== Sys2Proof/Decode.lean ====
section
/-! DEFINITION. The decoder of spec/30_encoding R109, total on 32-bit words and rejecting by name; the encoder of R107 beside it; the
opcode table's match and mask; and decodeTableWord, the host's reading of a row's word. -/

namespace Sys2Proof

/-- Why a word is illegal, the three kinds of R108. -/
inductive Reject where
  /-- kind 1: OPC is none of R107's -/
  | reservedOpcode
  /-- kind 2: a nonzero bit among the fixed-zero bits of the row -/
  | reservedBits
  /-- kind 3: GF.ADD, GF.MUL or GF.INV with FLD = 3 -/
  | fieldCodeThree
deriving DecidableEq, Repr

/-- OPC = w[31:24] (R101). -/
def opcodeOf (w : Word) : Byte := w.extractLsb' 24 8

/-- Format N (R102): bits [23:0] must be 0. -/
def decodeFormatN (w : Word) (i : Instr) : Except Reject Instr :=
  if w.extractLsb' 0 24 = 0#24 then .ok i else .error .reservedBits

/-- Format F (R103): bits [23:18] must be 0 and FLD ≠ 3. -/
def decodeFormatF (w : Word) (i : Instr) : Except Reject Instr :=
  if w.extractLsb' 18 6 = 0#6 then
    if fieldCodeOk (w.extractLsb' 16 2) then .ok i else .error .fieldCodeThree
  else .error .reservedBits

/-- The decoder of R109. -/
def decode (w : Word) : Except Reject Instr :=
  if opcodeOf w = 0x00#8 then decodeFormatN w .nop
  else if opcodeOf w = 0x01#8 then decodeFormatN w .init
  else if opcodeOf w = 0x10#8 then
    decodeFormatF w (.gfAdd (w.extractLsb' 16 2) (w.extractLsb' 8 8) (w.extractLsb' 0 8))
  else if opcodeOf w = 0x11#8 then
    decodeFormatF w (.gfMul (w.extractLsb' 16 2) (w.extractLsb' 8 8) (w.extractLsb' 0 8))
  else if opcodeOf w = 0x12#8 then
    if w.extractLsb' 0 8 = 0#8 then decodeFormatF w (.gfInv (w.extractLsb' 16 2) (w.extractLsb' 8 8))
    else .error .reservedBits
  else if opcodeOf w = 0x13#8 then
    .ok (.gfAxpy (w.extractLsb' 16 8) (w.extractLsb' 8 8) (w.extractLsb' 0 8))
  else if opcodeOf w = 0x20#8 then decodeFormatN w .genDense
  else if opcodeOf w = 0x21#8 then decodeFormatN w .genSparse
  else if opcodeOf w = 0x30#8 then decodeFormatN w .encWrite
  else if opcodeOf w = 0x31#8 then
    if w.extractLsb' 16 8 = 0#8 then .ok (.encSetdens (w.extractLsb' 0 16)) else .error .reservedBits
  else if opcodeOf w = 0x40#8 then decodeFormatN w .decRead
  else .error .reservedOpcode

/-- Format N: OPC then 24 zero bits (R102). -/
def encodeN (opc : Byte) : Word := opc ++ 0#24

/-- Format F: OPC, six zero bits, FLD, A, B (R103). -/
def encodeF (opc : Byte) (fld : BitVec 2) (a b : Byte) : Word := opc ++ 0#6 ++ fld ++ a ++ b

/-- Format X: OPC, COEFF, DST, SRC (R104). -/
def encodeX (opc coeff dst src : Byte) : Word := opc ++ coeff ++ dst ++ src

/-- Format I: OPC, eight zero bits, IMM16 (R105). -/
def encodeI (opc : Byte) (imm : BitVec 16) : Word := opc ++ 0#8 ++ imm

/-- The word of a command (R107, R110). -/
def encode : Instr → Word
  | .nop => encodeN 0x00#8
  | .init => encodeN 0x01#8
  | .gfAdd fld a b => encodeF 0x10#8 fld a b
  | .gfMul fld a b => encodeF 0x11#8 fld a b
  | .gfInv fld a => encodeF 0x12#8 fld a 0#8
  | .gfAxpy coeff dst src => encodeX 0x13#8 coeff dst src
  | .genDense => encodeN 0x20#8
  | .genSparse => encodeN 0x21#8
  | .encWrite => encodeN 0x30#8
  | .encSetdens imm => encodeI 0x31#8 imm
  | .decRead => encodeN 0x40#8

/-- The (match, mask) pair of the command's row in the table of R107. -/
def tableRow : Instr → Word × Word
  | .nop => (0x00000000#32, 0xFFFFFFFF#32)
  | .init => (0x01000000#32, 0xFFFFFFFF#32)
  | .gfAdd _ _ _ => (0x10000000#32, 0xFFFC0000#32)
  | .gfMul _ _ _ => (0x11000000#32, 0xFFFC0000#32)
  | .gfInv _ _ => (0x12000000#32, 0xFFFC00FF#32)
  | .gfAxpy _ _ _ => (0x13000000#32, 0xFF000000#32)
  | .genDense => (0x20000000#32, 0xFFFFFFFF#32)
  | .genSparse => (0x21000000#32, 0xFFFFFFFF#32)
  | .encWrite => (0x30000000#32, 0xFFFFFFFF#32)
  | .encSetdens _ => (0x31000000#32, 0xFFFF0000#32)
  | .decRead => (0x40000000#32, 0xFFFFFFFF#32)

/-- The command word whose bits below `nbits` are those of `w` and whose other bits are 0. -/
def tableWord (nbits w : Nat) : Word := BitVec.ofNat 32 (w % 2 ^ nbits)

/-- What the decoder reads from a table row's word: one 32-bit command word, as CMD takes it (R28, R100). -/
def decodeTableWord (nbits w : Nat) : Option Instr :=
  match decode (tableWord nbits w) with
  | .ok i => some i
  | .error _ => none

end Sys2Proof
end

