-- ==== Sys2Proof/Config.lean ====
section
/-! DEFINITION. What an implementation of KRC fixes when the hardware is built: the parameters of spec/00_scope R8 with their
default values, and the identification constant of spec/10_state R24. The parameters are plain data that State carries, so that a
statement about every state is a statement about every parameter (log 1). -/

namespace Sys2Proof

/-- The build parameters of R8. BLOCK_BYTES and PBUF_BYTES are derived from them (Machine/Operands.lean). -/
structure Params where
  /-- K_MAX, the largest `symbols`, 1..256 -/
  kMax : Nat
  /-- S_MAX, the largest `symbol_size` in bytes, 100..65535 -/
  sMax : Nat
  /-- POLY4, the reduction polynomial of GF(2^4), bit 4 set -/
  poly4 : BitVec 5
  /-- POLY8, the reduction polynomial of GF(2^8), bit 8 set -/
  poly8 : BitVec 9
  /-- REROLL_MAX, the seed perturbations the sparse generator tries after the first attempt, 0..255 -/
  rerollMax : Nat
deriving DecidableEq, Repr

/-- The defaults of R8. The two polynomials are the spec's "general knowledge" (R9): log 1. -/
def Config.defaults : Params :=
  { kMax := 64, sMax := 1024, poly4 := 0x13#5, poly8 := 0x11D#9, rerollMax := 255 }

/-- The constant the ID register reads, ASCII "KRC1" (R24). -/
def Config.idWord : Word := 0x4B524331#32

end Sys2Proof
end

