-- ==== Sys2Proof/Machine/State.lean ====
section
/-! DEFINITION. The state of one KRC unit (spec/10_state), the inputs its agents may make (spec/00_scope R6, R7), why the model
stops, and the state right after reset (R60). -/

namespace Sys2Proof.Machine

open Sys2Proof

/-- A memory of bytes, by offset: a list of (offset, byte) pairs with offsets strictly rising and no entry equal to what an
unlisted offset reads as (Memory.wf, Memory.unlisted in Machine/Memory.lean). -/
abbrev Memory := List Host.Cell

/-- The error codes of R271 (STATUS.ERR). -/
inductive ErrCode where
  /-- 0 NONE: the command succeeded -/
  | none
  /-- 1 CONFIG: ConfigurationError -/
  | config
  /-- 2 FRAMING: FramingError -/
  | framing
  /-- 3 DIV_ZERO: DivideByZero -/
  | divZero
  /-- 4 ILLEGAL: illegal word or operand out of range -/
  | illegal
  /-- 5 STATE: no instance, or the wrong role -/
  | state
deriving DecidableEq, Repr

/-- STATUS.LAST_READ (R29, R54): 0 none since INIT, 1 innovative, 2 dependent, 3 ignored. -/
inductive LastRead where
  | none
  | innovative
  | dependent
  | ignored
deriving DecidableEq, Repr

/-- What the host port answers to one transaction (R7, R72, R73): `hrdata` and `hresp`. -/
structure HostResp where
  /-- hrdata: the read data; 0 for a write and for a bus error -/
  rdata : Word
  /-- hresp: true is a bus error -/
  error : Bool
deriving DecidableEq, Repr

/-- The draws of one reset: what R300 and R301 leave to any value. Cells outside a memory mean nothing. -/
structure PowerOn where
  blk : List Host.Cell
  pbuf : List Host.Cell
  rows : List Host.Cell
  scrV : List Byte
  scrD : List Byte
  /-- what the host sees of a transaction that was in progress at the reset edge (93_implementation_defined, 9) -/
  abandoned : Option HostResp
deriving DecidableEq, Repr

/-- One act of an agent of R6, or a change of the `rst` input. -/
inductive Event where
  /-- a host read transaction: haddr, hsize (0 = 1 byte, 1 = 2 bytes, 2 = 4 bytes; R7; 3 is no size and
  answered with a bus error, D27) -/
  | read (addr : BitVec 25) (size : BitVec 2)
  /-- a host write transaction: haddr, hsize, hwdata -/
  | write (addr : BitVec 25) (size : BitVec 2) (data : Word)
  /-- the engine has its turn (R276) -/
  | engine
  /-- the random source offers one more word (R6, R7) -/
  | offer (word : Word)
  /-- a clock edge with rst = 1 (R300), with the draws of R301 -/
  | rstRise (p : PowerOn)
  /-- rst falls (R302) -/
  | rstFall
deriving DecidableEq, Repr

/-- Why the model stops with a fault: for no reason. KRC has no trap and no error that stops it (R270, R281), and a refused host
access is an answer, not a stop (R280), so the type has no constructor. -/
inductive Fault
deriving DecidableEq, Repr

/-- Why the model refuses an instruction. -/
inductive Refusal where
  /-- Raised by an arm of `exec` whose command has no meaning yet; no arm does. Safe: the model stops. -/
  | notModelled (mnemonic : String)
deriving DecidableEq, Repr

/-- The state of one unit. Registers hold 32 bits (R22); STATUS and PIVn are views (Flags.lean). -/
structure State where
  /-- the build parameters of R8; no step changes them -/
  params : Params
  /-- the level of the `rst` input (R7, R300) -/
  rst : Bool
  /-- MODEL: what the agents do next, in order (log 4) -/
  inbox : List Event
  /-- MODEL: the words the random source has offered and the engine has not taken (R7, R276; log 3) -/
  draws : List Word
  /-- the host port's answer to the last transaction (R7; log 7) -/
  resp : Option HostResp
  /-- PENDING, the accepted command word (R55); BUSY = 1 exactly when it is present -/
  pending : Option Word
  /-- CTRL (R27) -/
  ctrl : Word
  /-- STATUS.DONE (R29) -/
  done : Bool
  /-- STATUS.CONFIGURED (R29) -/
  configured : Bool
  /-- STATUS.CODED (R53) -/
  coded : Bool
  /-- STATUS.UNIT (R54) -/
  unit : Bool
  /-- STATUS.LAST_READ (R54) -/
  lastRead : LastRead
  /-- STATUS.ERR (R29, R271) -/
  err : ErrCode
  /-- ERRFLAGS (R30) -/
  errflags : Word
  /-- RESULT (R31) -/
  result : Word
  /-- CFG0 (R32) -/
  cfg0 : Word
  /-- CFG_SYMBOLS (R33) -/
  cfgSymbols : Word
  /-- CFG_SYMSIZE (R34) -/
  cfgSymsize : Word
  /-- CFG_DENSITY (R35) -/
  cfgDensity : Word
  /-- GEN_SEED (R36) -/
  genSeed : Word
  /-- PLEN (R37) -/
  plen : Word
  /-- PSIZE (R38) -/
  psize : Word
  /-- HSIZE (R39) -/
  hsize : Word
  /-- RANK (R40) -/
  rank : Word
  /-- CURSOR (R41) -/
  cursor : Word
  /-- DENSITY (R42) -/
  density : Word
  /-- SEED_LAST (R43) -/
  seedLast : Word
  /-- ACFG0 (R44): FIELD [1:0], FORMAT [5:4], ROLE [8] -/
  acfg0 : Word
  /-- ASYMBOLS (R44): k -/
  asymbols : Word
  /-- ASYMSIZE (R44): S -/
  asymsize : Word
  /-- PIV (R50): bit p is PIV[p] -/
  piv : BitVec 256
  /-- CVEC (R48), by entry -/
  cvec : Memory
  /-- ROWS (R49): entry c of row p at offset 256*p + c, as in its window (R70) -/
  rows : Memory
  /-- PBUF (R47) -/
  pbuf : Memory
  /-- BLK (R46) -/
  blk : Memory
  /-- SCR.v (R51): the incoming vector; never observable -/
  scrV : List Byte
  /-- SCR.d (R51): the incoming symbol data; never observable -/
  scrD : List Byte
deriving DecidableEq, Repr

/-- The machine right after reset (R60, R302), built with the default parameters. BLK, PBUF, ROWS and SCR, which R301 leaves to any
value, list nothing here (DESIGN CHOICE, log 2); the event `rstRise` takes any contents. -/
def State.reset : State where
  params := Config.defaults
  rst := false
  inbox := []
  draws := []
  resp := .none
  pending := .none
  ctrl := 0
  done := false
  configured := false
  coded := false
  unit := false
  lastRead := .none
  err := .none
  errflags := 0
  result := 0
  cfg0 := 0
  cfgSymbols := 0
  cfgSymsize := 0
  cfgDensity := 0
  genSeed := 0
  plen := 0
  psize := 0
  hsize := 0
  rank := 0
  cursor := 0
  density := 0
  seedLast := 0
  acfg0 := 0
  asymbols := 0
  asymsize := 0
  piv := 0
  cvec := []
  rows := []
  pbuf := []
  blk := []
  scrV := []
  scrD := []

end Sys2Proof.Machine
end

