-- ==== Sys2Proof/Machine/FieldArith.lean ====
section
/-! DEFINITION. The three fields and their element operations (spec/41_field_arithmetic R150-R154, R160), for any reduction
polynomials (R9). A polynomial over GF(2) is a Nat, bit i the coefficient of x^i. -/

namespace Sys2Proof.Machine

open Sys2Proof

/-- GF(2), GF(2^4), GF(2^8) (R3). -/
inductive Field where
  | gf2
  | gf16
  | gf256
deriving DecidableEq, Repr

/-- The field a code names (R32). Code 3 names none; INIT and the decoder reject it, so no run asks for it (log 8). -/
def Field.ofCode (c : BitVec 2) : Field :=
  if c = 0#2 then .gf2 else if c = 1#2 then .gf16 else .gf256

/-- The field code, which is also the field_tag of the wire (R32, R257). -/
def Field.code : Field → Byte
  | .gf2 => 0#8
  | .gf16 => 1#8
  | .gf256 => 2#8

/-- fb(F), the element width in bits (R13). -/
def Field.bits : Field → Nat
  | .gf2 => 1
  | .gf16 => 4
  | .gf256 => 8

/-- q(F), the field size (R13). -/
def Field.size : Field → Nat
  | .gf2 => 2
  | .gf16 => 16
  | .gf256 => 256

/-- a is an element of F: a < q(F) (R106). -/
def Field.holds (F : Field) (a : Byte) : Bool := decide (a.toNat < F.size)

/-- The carry-less product of R152. -/
def clmul (a b n : Nat) : Nat :=
  (List.range n).foldl (fun r i => if b.testBit i then r ^^^ (a <<< i) else r) 0

/-- The reduction of R152: t runs from 2n-2 down to n. -/
def reduce (r n P : Nat) : Nat :=
  (List.range (n - 1)).foldl
    (fun r j => if r.testBit (2 * n - 2 - j) then r ^^^ (P <<< (n - 2 - j)) else r) r

/-- mul_F (R151, R152). -/
def mulF (p : Params) (F : Field) (a b : Byte) : Byte :=
  match F with
  | .gf2 => a &&& b
  | .gf16 => BitVec.ofNat 8 (reduce (clmul a.toNat b.toNat 4) 4 p.poly4.toNat)
  | .gf256 => BitVec.ofNat 8 (reduce (clmul a.toNat b.toNat 8) 8 p.poly8.toNat)

/-- add_F, and subtraction: XOR in every field (R150). -/
def addF (a b : Byte) : Byte := a ^^^ b

/-- `n` rounds of squaring `sq` and multiplying it into `acc`. -/
def invLoop (p : Params) (F : Field) : Nat → Byte → Byte → Byte
  | 0, _, acc => acc
  | n + 1, sq, acc => invLoop p F n (mulF p F sq sq) (mulF p F acc (mulF p F sq sq))

/-- inv_F(a) = a^(q-2) (R153), with q - 2 = 2 + 4 + … + 2^(fb-1). inv_F(0) has no value: GF.INV checks A = 0 first (R157) and
DEC.READ never inverts 0 (R234). -/
def invF (p : Params) (F : Field) (a : Byte) : Byte := invLoop p F (F.bits - 1) a 1#8

/-- mulb_F (R154): every element packed in the symbol byte `x` times `c`. -/
def mulb (p : Params) (F : Field) (c x : Byte) : Byte :=
  match F with
  | .gf2 => if c = 1#8 then x else 0#8
  | .gf16 => (mulF p .gf16 c (x >>> 4) <<< 4) ||| mulF p .gf16 c (x &&& 0x0F#8)
  | .gf256 => mulF p .gf256 c x

/-- c ⊗ v on a vector of elements (R160). -/
def scaleVec (p : Params) (F : Field) (c : Byte) (v : List Byte) : List Byte := v.map (mulF p F c)

/-- c ⊗ d on symbol data (R160). -/
def scaleData (p : Params) (F : Field) (c : Byte) (d : List Byte) : List Byte := d.map (mulb p F c)

/-- u ⊕ v, entry by entry (R160). -/
def xorVec (u v : List Byte) : List Byte := List.zipWith addF u v

/-- e_i of length k (R13). -/
def unitVec (k i : Nat) : List Byte := (List.range k).map (fun c => if c = i then 1#8 else 0#8)

/-- r modulo the polynomial d: the leading bits of r from bit `t + deg d` down are cleared with shifts of d. -/
def polyModFrom (d dd : Nat) : Nat → Nat → Nat
  | 0, r => if r.testBit dd then r ^^^ d else r
  | t + 1, r => polyModFrom d dd t (if r.testBit (t + 1 + dd) then r ^^^ (d <<< (t + 1)) else r)

/-- No polynomial of degree `dd` divides P, a polynomial of degree n. -/
def noFactorOfDegree (n P dd : Nat) : Bool :=
  (List.range (2 ^ dd)).all (fun low => polyModFrom (2 ^ dd + low) dd (n - dd) P != 0)

/-- P is irreducible of degree n: bit n is its highest bit, and no polynomial of degree 1..n/2 divides it (R8). -/
def irreducible (n P : Nat) : Bool :=
  P.testBit n && decide (P < 2 ^ (n + 1)) && (List.range (n / 2)).all (fun j => noFactorOfDegree n P (j + 1))

/-- The legal ranges of R8. -/
def paramsLegal (p : Params) : Bool :=
  decide (1 ≤ p.kMax ∧ p.kMax ≤ 256 ∧ 100 ≤ p.sMax ∧ p.sMax ≤ 65535 ∧ p.rerollMax ≤ 255)
    && irreducible 4 p.poly4.toNat && irreducible 8 p.poly8.toNat

end Sys2Proof.Machine
end

