-- ==== Sys2Proof/Machine/Memory.lean ====
section
/-! DEFINITION. The named operations over one byte memory (spec/10_state R46-R49): reading and writing one byte and a run of bytes,
and the canonical form that makes equal memories equal data. -/

namespace Sys2Proof.Machine

open Sys2Proof

/-- What an offset that a memory does not list reads as: 0. For CVEC that is the reset value (R48, R60). For BLK, PBUF and ROWS after
`State.reset` it is a DESIGN CHOICE (log 2): R301 leaves those bytes to any value. -/
def Memory.unlisted : Byte := 0#8

/-- The byte at offset `x`. -/
def Memory.read : Memory → Nat → Byte
  | [], _ => Memory.unlisted
  | (a, b) :: m, x => if a = x then b else Memory.read m x

/-- The memory with offset `x` not listed. -/
def Memory.erase (m : Memory) (x : Nat) : Memory := m.filter (fun c => c.1 != x)

/-- The entry (x, v) put before the first entry with a larger offset. -/
def Memory.insert : Memory → Nat → Byte → Memory
  | [], x, v => [(x, v)]
  | (a, b) :: m, x, v => if x < a then (x, v) :: (a, b) :: m else (a, b) :: Memory.insert m x v

/-- The memory with byte `v` at offset `x`; writing what an unlisted offset reads as removes the entry. -/
def Memory.write (m : Memory) (x : Nat) (v : Byte) : Memory :=
  if v = Memory.unlisted then Memory.erase m x else Memory.insert (Memory.erase m x) x v

/-- The `n` bytes at offsets `x .. x+n-1`. -/
def Memory.readRun (m : Memory) (x n : Nat) : List Byte := (List.range n).map (fun j => m.read (x + j))

/-- The memory with the bytes `bs` at offsets `x ..`, written in ascending order. -/
def Memory.writeRun : Memory → Nat → List Byte → Memory
  | m, _, [] => m
  | m, x, b :: bs => Memory.writeRun (m.write x b) (x + 1) bs

/-- Offsets strictly rising from `lo` on, and no entry equal to what an unlisted offset reads as. -/
def Memory.wfFrom : Nat → Memory → Bool
  | _, [] => true
  | lo, (a, b) :: m => decide (lo ≤ a) && b != Memory.unlisted && Memory.wfFrom (a + 1) m

/-- The canonical form of a memory. -/
def Memory.wf (m : Memory) : Bool := Memory.wfFrom 0 m

/-- Every listed offset is one that `inside` admits. -/
def Memory.within (m : Memory) (inside : Nat → Bool) : Bool := m.all (fun c => inside c.1)

/-- The canonical memory that holds `cells` at the offsets `inside` admits (a later cell of an offset wins). -/
def Memory.ofCells (inside : Nat → Bool) (cells : List Host.Cell) : Memory :=
  cells.foldl (fun m c => if inside c.1 then m.write c.1 c.2 else m) []

end Sys2Proof.Machine
end

