-- ==== Sys2Proof/Machine/Operands.lean ====
section
/-! DEFINITION. Where commands find their operands: the fields of the configuration registers (spec/10_state R32-R35), of the active
configuration (R44), the derived sizes of spec/00_scope R8, and the places of symbols and rows (R46, R49). -/

namespace Sys2Proof.Machine

open Sys2Proof

/-- BLOCK_BYTES (R8). -/
def blockBytes (p : Params) : Nat := p.kMax * p.sMax

/-- PBUF_BYTES (R8, R253). -/
def pbufBytes (p : Params) : Nat := max 8 (2 + p.kMax) + p.sMax

/-- CFG0.FIELD and ACFG0.FIELD: bits [1:0] (R32, R44). -/
def cfgField (w : Word) : BitVec 2 := w.extractLsb' 0 2

/-- CFG0.FORMAT and ACFG0.FORMAT: bits [5:4] (R32, R44). -/
def cfgFormat (w : Word) : BitVec 2 := w.extractLsb' 4 2

/-- CFG0.ROLE and ACFG0.ROLE: bit 8, false = encoder, true = decoder (R32, R44). -/
def cfgRole (w : Word) : Bool := w.getLsbD 8

/-- The 16-bit field [15:0] of CFG_SYMBOLS, CFG_SYMSIZE and CFG_DENSITY (R33-R35). -/
def low16 (w : Word) : Nat := (w.extractLsb' 0 16).toNat

/-- ACFG0 of a field code, a format code and a role (R131): {role, 00, fmt, 00, f}, zero-extended. -/
def packCfg (f fmt : BitVec 2) (role : Bool) : Word :=
  (BitVec.ofBool role ++ 0#2 ++ fmt ++ 0#2 ++ f : BitVec 9).setWidth 32

/-- F, the active field (R44). -/
def State.field (s : State) : Field := Field.ofCode (cfgField s.acfg0)

/-- FMT, the active vector format code (R44): 0 dense, 1 sparse-seeded. -/
def State.format (s : State) : BitVec 2 := cfgFormat s.acfg0

/-- ROLE, the active role (R44): true = decoder. -/
def State.isDecoder (s : State) : Bool := cfgRole s.acfg0

/-- k (R44). -/
def State.k (s : State) : Nat := s.asymbols.toNat

/-- S (R44). -/
def State.symSize (s : State) : Nat := s.asymsize.toNat

/-- H (R44). -/
def State.hdr (s : State) : Nat := s.hsize.toNat

/-- D, the active density code (R44). -/
def State.dens (s : State) : Nat := s.density.toNat

/-- header_size(F, FMT, k) (R252). -/
def headerSize (F : Field) (fmt : BitVec 2) (k : Nat) : Nat :=
  if fmt = 0#2 then 2 + (k * F.bits + 7) / 8 else 8

/-- The offset of sym(i) in BLK (R46). -/
def symAt (S i : Nat) : Nat := i * S

/-- The offset of ROWS[r] in the row memory (R49, R70). -/
def rowAt (r : Nat) : Nat := 256 * r

/-- PIV[r] (R50). -/
def pivHeld (piv : BitVec 256) (r : Nat) : Bool := piv.getLsbD r

/-- PIV with PIV[r] = 1. -/
def pivSet (piv : BitVec 256) (r : Nat) : BitVec 256 := piv ||| (1#256 <<< r)

/-- The number of held pivots below k, which RANK equals (R40, R58). -/
def pivCount (piv : BitVec 256) (k : Nat) : Nat := ((List.range k).filter (pivHeld piv)).length

end Sys2Proof.Machine
end

