-- ==== Sys2Proof/Machine/Flags.lean ====
section
/-! DEFINITION. STATUS and its derived bits (spec/10_state R29, R52), the error codes (spec/60_exceptions R271), ERRFLAGS (R30), the
interrupt (R284) and PIV0..PIV7 (R45). -/

namespace Sys2Proof.Machine

open Sys2Proof

/-- The code STATUS.ERR holds (R271). -/
def ErrCode.code : ErrCode → Nat
  | .none => 0
  | .config => 1
  | .framing => 2
  | .divZero => 3
  | .illegal => 4
  | .state => 5

/-- The code STATUS.LAST_READ holds (R29). -/
def LastRead.code : LastRead → Nat
  | .none => 0
  | .innovative => 1
  | .dependent => 2
  | .ignored => 3

/-- STATUS.BUSY: a command is pending (R55). -/
def State.busy (s : State) : Bool := s.pending.isSome

/-- STATUS.COMPLETE (R52). -/
def State.complete (s : State) : Bool := s.configured && s.isDecoder && s.rank == s.asymbols

/-- The irq output (R284): DONE and CTRL.IE. -/
def State.irq (s : State) : Bool := s.done && s.ctrl.getLsbD 0

/-- Bit `i` of a word, or no bit. -/
def bitAt (b : Bool) (i : Nat) : Word := if b then 1#32 <<< i else 0#32

/-- The STATUS register (R29). -/
def State.status (s : State) : Word :=
  bitAt s.busy 0 ||| bitAt s.done 1 ||| bitAt s.configured 2 ||| bitAt s.isDecoder 3 ||| bitAt s.coded 4 |||
    bitAt s.complete 5 ||| bitAt s.unit 6 ||| (BitVec.ofNat 32 s.lastRead.code <<< 8) |||
    (BitVec.ofNat 32 s.err.code <<< 12)

/-- ERRFLAGS with bit n set (R30). -/
def flagSet (flags : Word) (n : Nat) : Word := flags ||| (1#32 <<< n)

/-- ERRFLAGS after a completion with code e: bit e is set unless e is 0 (R30, R278). -/
def flagsAfter (flags : Word) (e : ErrCode) : Word := if e = .none then flags else flagSet flags e.code

/-- The number of the ERRFLAGS bit BUSY (R30). -/
def busyFlag : Nat := 6

/-- PIVn: bit b is PIV[32n + b] (R45). -/
def pivWord (piv : BitVec 256) (n : Nat) : Word := piv.extractLsb' (32 * n) 32

end Sys2Proof.Machine
end

