-- ==== Sys2Proof/Machine/Ops.lean ====
section
/-! DEFINITION. The life cycle of a command, shared by all of them (spec/60_exceptions R270-R278): acceptance, completion, an error
(`raise E`, the nearest thing KRC has to taking an exception: it takes no trap, R281, and there is no return from one, R282), the
checks of steps 3 and 4 of R272, and the wait for random draws (R276). -/

namespace Sys2Proof.Machine

open Sys2Proof

/-- What a command or a step answers. -/
abbrev Result := Host.Outcome State Fault Refusal

/-- accept(w) (R275): PENDING <- w, so BUSY = 1; DONE and ERR are cleared. -/
def accept (w : Word) (s : State) : State :=
  { s with pending := some w, done := false, err := .none }

/-- complete(E) (R278): ERR, the sticky ERRFLAGS bit, DONE = 1, BUSY = 0, PENDING none. -/
def complete (e : ErrCode) (s : State) : State :=
  { s with err := e, errflags := flagsAfter s.errflags e, done := true, pending := .none }

/-- `raise E` (R12, R270): the command completes with code E, and of its writes only those already in `s` stand. Every command but INIT
raises on the state it was given, so none of its writes stand (R277). -/
def raise (e : ErrCode) (s : State) : Result := .next (complete e s)

/-- `return` (R12): the writes in `s` commit and the command completes without error (R277, R278). -/
def finish (s : State) : Result := .next (complete .none s)

/-- The engine waits (R276): the random source has not offered every draw the command takes, so nothing changes and the command stays
pending (log 13). -/
def wait (s : State) : Result := .next s

/-- Step 3 of R272 for a command that needs an instance. -/
def withInstance (s : State) (body : Result) : Result := if s.configured then body else raise .state s

/-- Step 3 of R272 for a command that needs a role (R273): true = decoder. -/
def withRole (decoder : Bool) (s : State) (body : Result) : Result :=
  withInstance s (if s.isDecoder = decoder then body else raise .state s)

/-- Step 4 of R272: the operands are in range, or ILLEGAL. -/
def withRange (ok : Bool) (s : State) (body : Result) : Result := if ok then body else raise .illegal s

/-- The first `n` random draws, in the order of the `rng_next()` calls, and the state in which they are taken; or a wait (R276). -/
def withDraws (n : Nat) (s : State) (body : List Word → State → Result) : Result :=
  if s.draws.length < n then wait s else body (s.draws.take n) { s with draws := s.draws.drop n }

/-- CVEC[0..k-1] <- v (R48). -/
def writeCvec (v : List Byte) (s : State) : State := { s with cvec := s.cvec.writeRun 0 v }

end Sys2Proof.Machine
end

