-- ==== Sys2Proof/Machine/Control.lean ====
section
/-! DEFINITION. The control commands NOP and INIT (spec/40_control R130-R137). -/

namespace Sys2Proof.Machine

open Sys2Proof

/-- NOP (R130): `return`. -/
def execNop (s : State) : Result := finish s

/-- The end of the old instance, which INIT commits in both outcomes (R131, R134). -/
def teardown (s : State) : State :=
  { s with
    rank := 0, cursor := 0, seedLast := 0, piv := 0, cvec := [],
    coded := false, unit := false, lastRead := .none }

/-- No instance: the registers of the active configuration read 0 (R131, R135). -/
def unconfigure (s : State) : State :=
  { s with
    acfg0 := 0, asymbols := 0, asymsize := 0, hsize := 0, psize := 0, density := 0, configured := false }

/-- The configuration registers hold a valid configuration (R131): FIELD ≤ 2, FORMAT ≤ 1, 1 ≤ k ≤ K_MAX, 1 ≤ S ≤ S_MAX, D ≤ 0x8000. -/
def configOk (s : State) : Bool :=
  decide ((cfgField s.cfg0).toNat ≤ 2 ∧ (cfgFormat s.cfg0).toNat ≤ 1
    ∧ low16 s.cfgSymbols ≠ 0 ∧ low16 s.cfgSymbols ≤ s.params.kMax
    ∧ low16 s.cfgSymsize ≠ 0 ∧ low16 s.cfgSymsize ≤ s.params.sMax
    ∧ low16 s.cfgDensity ≤ 0x8000)

/-- The header size of the configuration that the configuration registers hold (R252). -/
def newHeader (s : State) : Nat :=
  headerSize (Field.ofCode (cfgField s.cfg0)) (cfgFormat s.cfg0) (low16 s.cfgSymbols)

/-- The new instance, latched from the configuration registers (R131, R252, R253). -/
def configure (s : State) : State :=
  { s with
    acfg0 := packCfg (cfgField s.cfg0) (cfgFormat s.cfg0) (cfgRole s.cfg0)
    asymbols := BitVec.ofNat 32 (low16 s.cfgSymbols)
    asymsize := BitVec.ofNat 32 (low16 s.cfgSymsize)
    hsize := BitVec.ofNat 32 (newHeader s)
    psize := BitVec.ofNat 32 (newHeader s + low16 s.cfgSymsize)
    density := BitVec.ofNat 32 (low16 s.cfgDensity)
    configured := true }

/-- INIT (R131). -/
def execInit (s : State) : Result :=
  if configOk s then finish (configure (teardown s)) else raise .config (unconfigure (teardown s))

end Sys2Proof.Machine
end

