-- ==== Sys2Proof/Machine/Generator.lean ====
section
/-! DEFINITION. The coefficient generator and its commands GEN.DENSE and GEN.SPARSE (spec/42_coefficient_generator R180-R189). -/

namespace Sys2Proof.Machine

open Sys2Proof

/-- A density code is valid: D ≤ 0x8000 (R180). -/
def densityOk (d : Nat) : Bool := decide (d ≤ 0x8000)

/-- lcg (R182). -/
def lcg (s : Word) : Word := s * 1664525#32 + 1013904223#32

/-- The upper half s[31:16] of an expansion state (R183). -/
def upper16 (s : Word) : Nat := (s.extractLsb' 16 16).toNat

/-- One entry of the expansion from its two 16-bit draws u and w (R181, R183). -/
def sparseEntry (F : Field) (d u w : Nat) : Byte :=
  if u < 2 * d then BitVec.ofNat 8 (1 + w % (F.size - 1)) else 0#8

/-- One attempt of R183: `n` entries from the expansion state `s`, two LCG steps each. -/
def sparseAttempt (F : Field) (d : Nat) : Nat → Word → List Byte
  | 0, _ => []
  | n + 1, s => sparseEntry F d (upper16 (lcg s)) (upper16 (lcg (lcg s))) :: sparseAttempt F d n (lcg (lcg s))

/-- A vector with an entry that is not 0. -/
def nonzero (v : List Byte) : Bool := v.any (fun x => x != 0#8)

/-- The attempts `att ..` of R183, `n` of them, the first with seed `s`; after the last, e_(seed mod k) (R184). -/
def expandFrom (F : Field) (d k seed : Nat) : Nat → Word → List Byte
  | 0, _ => unitVec k (seed % k)
  | n + 1, s =>
    if nonzero (sparseAttempt F d k s) then sparseAttempt F d k s else expandFrom F d k seed n (s + 1#32)

/-- expand(seed, D, k, F) (R183): attempts 0..REROLL_MAX. -/
def expand (p : Params) (seed : Word) (d k : Nat) (F : Field) : List Byte :=
  expandFrom F d k seed.toNat (p.rerollMax + 1) seed

/-- The low fb(F) bits of a draw (R186). -/
def denseEntry (F : Field) (r : Word) : Byte := BitVec.ofNat 8 (r.toNat % F.size)

/-- dense(k, F) of its k draws (R186). -/
def dense (F : Field) (draws : List Word) : List Byte := draws.map (denseEntry F)

/-- GEN.DENSE (R186): k draws. -/
def execGenDense (s : State) : Result :=
  withInstance s (withDraws s.k s (fun rs t => finish (writeCvec (dense t.field rs) t)))

/-- GEN.SPARSE (R187): no draws. -/
def execGenSparse (s : State) : Result :=
  withInstance s (finish (writeCvec (expand s.params s.genSeed s.dens s.k s.field) s))

end Sys2Proof.Machine
end

