-- ==== Sys2Proof/Machine/Framer.lean ====
section
/-! DEFINITION. The payload header/data framer (spec/45_payload_codec R250-R263): the three headers, and the parser of DEC.READ. -/

namespace Sys2Proof.Machine

open Sys2Proof

/-- The format_tag values (R257). -/
def tagSystematic : Byte := 0x00#8
def tagDense : Byte := 0x01#8
def tagSparse : Byte := 0x02#8

/-- Elements in one packed byte: 8/fb(F) (R254). -/
def perByte (F : Field) : Nat := 8 / F.bits

/-- Byte j of a packed vector (R254): element `perByte*j + b` at bits `fb*b ..`, least significant first; the pad is 0 (R262). -/
def packByte (F : Field) (v : List Byte) (j : Nat) : Byte :=
  (List.range (perByte F)).foldl (fun acc b => acc ||| (v.getD (perByte F * j + b) 0#8 <<< (F.bits * b))) 0#8

/-- dense_header(F, v, k, H) (R254). -/
def denseHeader (F : Field) (v : List Byte) (H : Nat) : List Byte :=
  tagDense :: F.code :: (List.range (H - 2)).map (packByte F v)

/-- Element i of a packed vector: the bits dense_header puts v[i] in (R254). -/
def unpackEntry (F : Field) (h : List Byte) (i : Nat) : Byte :=
  BitVec.ofNat 8 (((h.getD (2 + i / perByte F) 0#8).toNat >>> (F.bits * (i % perByte F))) % F.size)

/-- unpack_dense(F, h, k) (R254). -/
def unpackDense (F : Field) (h : List Byte) (k : Nat) : List Byte := (List.range k).map (unpackEntry F h)

/-- sparse_header(F, seed, D) (R251): big-endian fields (R255). -/
def sparseHeader (F : Field) (seed : Word) (d : BitVec 16) : List Byte :=
  [tagSparse, F.code, seed.extractLsb' 24 8, seed.extractLsb' 16 8, seed.extractLsb' 8 8, seed.extractLsb' 0 8,
   d.extractLsb' 8 8, d.extractLsb' 0 8]

/-- sys_header(F, i, H) (R256). -/
def sysHeader (F : Field) (i H : Nat) : List Byte :=
  tagSystematic :: F.code :: BitVec.ofNat 8 i :: List.replicate (H - 3) 0#8

/-- The seed field of a sparse header (R259). -/
def headerSeed (h : List Byte) : Word := h.getD 2 0#8 ++ h.getD 3 0#8 ++ h.getD 4 0#8 ++ h.getD 5 0#8

/-- The density field of a sparse header (R259). -/
def headerDensity (h : List Byte) : BitVec 16 := h.getD 6 0#8 ++ h.getD 7 0#8

/-- parse_vector (R259); none is `raise FRAMING`. -/
def parseVector (p : Params) (F : Field) (fmt : BitVec 2) (k : Nat) (h : List Byte) : Option (List Byte) :=
  if h.getD 1 0#8 ≠ F.code then none
  else if h.getD 0 0#8 = tagSystematic then
    if (h.getD 2 0#8).toNat ≥ k then none else some (unitVec k (h.getD 2 0#8).toNat)
  else if h.getD 0 0#8 = tagDense then
    if fmt ≠ 0#2 then none else some (unpackDense F h k)
  else if h.getD 0 0#8 = tagSparse then
    if fmt ≠ 1#2 then none
    else if densityOk (headerDensity h).toNat then some (expand p (headerSeed h) (headerDensity h).toNat k F)
    else none
  else none

/-- Framing (R258): the header, then the body, from PBUF[0] on. -/
def framePayload (hdr body : List Byte) (pbuf : Memory) : Memory := pbuf.writeRun 0 (hdr ++ body)

end Sys2Proof.Machine
end

