-- ==== Sys2Proof/Machine/Decoder.lean ====
section
/-! DEFINITION. The incremental Gaussian-elimination decoder: DEC.READ (spec/44_decoder R220-R237). -/

namespace Sys2Proof.Machine

open Sys2Proof

/-- A row in the scratch row SCR: k elements and S bytes (R51, R224). -/
structure Scratch where
  v : List Byte
  d : List Byte
deriving DecidableEq, Repr

/-- The held rows: the row memory and the block that holds their symbol data (R46, R49). -/
structure Held where
  rows : Memory
  blk : Memory
deriving DecidableEq, Repr

/-- ROWS[r][0..k-1] (R49). -/
def rowVec (rows : Memory) (k r : Nat) : List Byte := rows.readRun (rowAt r) k

/-- sym(r) (R46). -/
def symData (blk : Memory) (S r : Nat) : List Byte := blk.readRun (symAt S r) S

/-- One round of forward elimination: with held row j, when SCR.v[j] ≠ 0 (R225, R226). -/
def eliminateWith (p : Params) (F : Field) (k S : Nat) (piv : BitVec 256) (m : Held) (x : Scratch) (j : Nat) : Scratch :=
  if pivHeld piv j && x.v.getD j 0#8 != 0#8 then
    { v := xorVec x.v (scaleVec p F (x.v.getD j 0#8) (rowVec m.rows k j))
      d := xorVec x.d (scaleData p F (x.v.getD j 0#8) (symData m.blk S j)) }
  else x

/-- Forward elimination, j ascending over 0..k-1 (R225). -/
def eliminate (p : Params) (F : Field) (k S : Nat) (piv : BitVec 256) (m : Held) (x : Scratch) : Scratch :=
  (List.range k).foldl (eliminateWith p F k S piv m) x

/-- The least index of an entry that is not 0 (R227). -/
def leading (v : List Byte) : Nat := v.findIdx (fun x => x != 0#8)

/-- Normalization: the row times the inverse of its first nonzero entry (R227). -/
def normalize (p : Params) (F : Field) (x : Scratch) : Scratch :=
  { v := scaleVec p F (invF p F (x.v.getD (leading x.v) 0#8)) x.v
    d := scaleData p F (invF p F (x.v.getD (leading x.v) 0#8)) x.d }

/-- One round of back-substitution: held row r, when ROWS[r][pcol] ≠ 0 (R228). -/
def backSubstRow (p : Params) (F : Field) (k S : Nat) (piv : BitVec 256) (pcol : Nat) (x : Scratch) (m : Held) (r : Nat) :
    Held :=
  if pivHeld piv r && m.rows.read (rowAt r + pcol) != 0#8 then
    { rows := m.rows.writeRun (rowAt r)
        (xorVec (rowVec m.rows k r) (scaleVec p F (m.rows.read (rowAt r + pcol)) x.v))
      blk := m.blk.writeRun (symAt S r)
        (xorVec (symData m.blk S r) (scaleData p F (m.rows.read (rowAt r + pcol)) x.d)) }
  else m

/-- Back-substitution over the held rows r = 0..k-1 (R228). -/
def backSubst (p : Params) (F : Field) (k S : Nat) (piv : BitVec 256) (pcol : Nat) (x : Scratch) (m : Held) : Held :=
  (List.range k).foldl (backSubstRow p F k S piv pcol x) m

/-- ROWS[pcol] <- SCR.v and sym(pcol) <- SCR.d (R227). -/
def storeRow (S pcol : Nat) (x : Scratch) (m : Held) : Held :=
  { rows := m.rows.writeRun (rowAt pcol) x.v
    blk := m.blk.writeRun (symAt S pcol) x.d }

/-- SCR.v has exactly one nonzero entry (R231). -/
def isUnitRow (v : List Byte) : Bool := (v.filter (fun x => x != 0#8)).length == 1

/-- The payload's row as DEC.READ loads it (R224): the parsed vector and PBUF[H .. H+S-1]. -/
def loadScratch (v : List Byte) (s : State) : Scratch :=
  { v := v, d := s.pbuf.readRun s.hdr s.symSize }

/-- The incoming row after forward elimination (R225). -/
def reducedRow (v : List Byte) (s : State) : Scratch :=
  eliminate s.params s.field s.k s.symSize s.piv { rows := s.rows, blk := s.blk } (loadScratch v s)

/-- An ignored read: the decoder is complete (R232). -/
def readIgnored (s : State) : State := { s with lastRead := .ignored, unit := false }

/-- A dependent read: the reduced vector is zero (R229). -/
def readDependent (v : List Byte) (x : Scratch) (s : State) : State :=
  { writeCvec v s with scrV := x.v, scrD := x.d, lastRead := .dependent, unit := false }

/-- An innovative read: the normalized row x becomes pivot row pcol (R227-R231). -/
def readInnovative (v : List Byte) (pcol : Nat) (x : Scratch) (s : State) : State :=
  let m := storeRow s.symSize pcol x
    (backSubst s.params s.field s.k s.symSize s.piv pcol x { rows := s.rows, blk := s.blk })
  { writeCvec v s with
    scrV := x.v, scrD := x.d
    rows := m.rows
    blk := m.blk
    piv := pivSet s.piv pcol
    rank := s.rank + 1#32
    lastRead := .innovative
    unit := isUnitRow x.v }

/-- What DEC.READ does with a parsed vector (R220, from the fourth line on). -/
def readParsed (v : List Byte) (s : State) : State :=
  if nonzero (reducedRow v s).v then
    readInnovative v (leading (reducedRow v s).v) (normalize s.params s.field (reducedRow v s)) s
  else readDependent v (reducedRow v s) s

/-- The header of the payload in PBUF: PBUF[0..H-1] (R259). -/
def State.header (s : State) : List Byte := s.pbuf.readRun 0 s.hdr

/-- The vector of the payload in PBUF, or none where the header is malformed (R223, R259). -/
def State.parsed (s : State) : Option (List Byte) := parseVector s.params s.field s.format s.k s.header

/-- DEC.READ (R220). -/
def execDecRead (s : State) : Result :=
  withRole true s
    (if s.rank = s.asymbols then finish (readIgnored s)
     else if s.plen ≠ s.psize then raise .framing s
     else match s.parsed with
       | none => raise .framing s
       | some v => finish (readParsed v s))

end Sys2Proof.Machine
end

