-- ==== Sys2Proof/Machine/Encoder.lean ====
section
/-! DEFINITION. The encoder symbol combiner: ENC.WRITE and ENC.SETDENS (spec/43_encoder R200-R209). -/

namespace Sys2Proof.Machine

open Sys2Proof

/-- Byte t of a coded body: the XOR over i of mulb_F(v[i], BLK[i*S + t]) (R202). -/
def codedByte (p : Params) (F : Field) (S : Nat) (v : List Byte) (blk : Memory) (t : Nat) : Byte :=
  (List.range v.length).foldl
    (fun acc i => addF acc (mulb p F (v.getD i 0#8) (blk.read (symAt S i + t)))) 0#8

/-- The coded body (R202). -/
def codedBody (p : Params) (F : Field) (S : Nat) (v : List Byte) (blk : Memory) : List Byte :=
  (List.range S).map (codedByte p F S v blk)

/-- The common end of ENC.WRITE (R200): CVEC, PBUF and PLEN. -/
def emit (v hdr body : List Byte) (s : State) : State :=
  { s with
    cvec := s.cvec.writeRun 0 v
    pbuf := framePayload hdr body s.pbuf
    plen := s.psize }

/-- ENC.WRITE in the state Systematic (R200, R201): the payload of symbol CURSOR. -/
def writeSystematic (s : State) : State :=
  { emit (unitVec s.k s.cursor.toNat) (sysHeader s.field s.cursor.toNat s.hdr)
      (s.blk.readRun (symAt s.symSize s.cursor.toNat) s.symSize) s with
    cursor := s.cursor + 1#32
    coded := s.coded || decide (s.cursor.toNat + 1 = s.k) }

/-- ENC.WRITE in the state Coded, dense format, with the vector v (R200, R202). -/
def writeDense (v : List Byte) (s : State) : State :=
  emit v (denseHeader s.field v s.hdr) (codedBody s.params s.field s.symSize v s.blk) s

/-- ENC.WRITE in the state Coded, sparse-seeded format, with the drawn seed (R200, R203). -/
def writeSparse (seed : Word) (s : State) : State :=
  { emit (expand s.params seed s.dens s.k s.field) (sparseHeader s.field seed (s.density.setWidth 16))
      (codedBody s.params s.field s.symSize (expand s.params seed s.dens s.k s.field) s.blk) s with
    seedLast := seed }

/-- ENC.WRITE (R200). -/
def execEncWrite (s : State) : Result :=
  withRole false s
    (if s.coded = false then finish (writeSystematic s)
     else if s.format = 0#2 then
       withDraws s.k s (fun rs t => finish (writeDense (dense t.field rs) t))
     else
       withDraws 1 s (fun rs t => finish (writeSparse (rs.getD 0 0#32) t)))

/-- ENC.SETDENS (R205). -/
def execEncSetdens (imm : BitVec 16) (s : State) : Result :=
  withRole false s
    (if densityOk imm.toNat then finish { s with density := imm.setWidth 32 } else raise .config s)

end Sys2Proof.Machine
end

