-- ==== Sys2Proof/Machine/Fau.lean ====
section
/-! DEFINITION. The field arithmetic commands GF.ADD, GF.MUL, GF.INV and GF.AXPY (spec/41_field_arithmetic R155-R158). -/

namespace Sys2Proof.Machine

open Sys2Proof

/-- Steps 2 and 4 of R272 for GF.ADD, GF.MUL and GF.INV: FLD names a field, and the operands are elements of it. -/
def withElements (fld : BitVec 2) (operands : List Byte) (s : State) (body : Result) : Result :=
  withRange (fieldCodeOk fld && operands.all (Field.ofCode fld).holds) s body

/-- RESULT <- zext_32(r) (R31). -/
def setResult (r : Byte) (s : State) : State := { s with result := r.setWidth 32 }

/-- GF.ADD (R155). -/
def execGfAdd (fld : BitVec 2) (a b : Byte) (s : State) : Result :=
  withElements fld [a, b] s (finish (setResult (addF a b) s))

/-- GF.MUL (R156). -/
def execGfMul (fld : BitVec 2) (a b : Byte) (s : State) : Result :=
  withElements fld [a, b] s (finish (setResult (mulF s.params (Field.ofCode fld) a b) s))

/-- GF.INV (R157): the zero test comes after the range check. -/
def execGfInv (fld : BitVec 2) (a : Byte) (s : State) : Result :=
  withElements fld [a] s
    (if a = 0#8 then raise .divZero s
     else finish (setResult (invF s.params (Field.ofCode fld) a) s))

/-- One byte of `sym(DST) += COEFF * sym(SRC)`: byte t (R158). -/
def axpyByte (p : Params) (F : Field) (S : Nat) (coeff : Byte) (dst src : Nat) (m : Memory) (t : Nat) : Memory :=
  m.write (symAt S dst + t)
    (addF (m.read (symAt S dst + t)) (mulb p F coeff (m.read (symAt S src + t))))

/-- The loop of R158 over the bytes t = 0..S-1, in order (R14). -/
def axpy (p : Params) (F : Field) (S : Nat) (coeff : Byte) (dst src : Nat) (m : Memory) : Memory :=
  (List.range S).foldl (axpyByte p F S coeff dst src) m

/-- GF.AXPY (R158). -/
def execGfAxpy (coeff dst src : Byte) (s : State) : Result :=
  withInstance s
    (withRange (s.field.holds coeff && decide (dst.toNat < s.k) && decide (src.toNat < s.k)) s
      (finish { s with blk := axpy s.params s.field s.symSize coeff dst.toNat src.toNat s.blk }))

end Sys2Proof.Machine
end

