-- ==== Sys2Proof/Machine/Dispatch.lean ====
section
/-! DEFINITION. Execution of one decoded command: one arm per constructor of Instr (spec/30_encoding R107). -/

namespace Sys2Proof.Machine

open Sys2Proof

def exec (i : Instr) (s : State) : Host.Outcome State Fault Refusal :=
  match i with
  | .nop => Sys2Proof.Machine.execNop s
  | .init => Sys2Proof.Machine.execInit s
  | .gfAdd fld a b => Sys2Proof.Machine.execGfAdd fld a b s
  | .gfMul fld a b => Sys2Proof.Machine.execGfMul fld a b s
  | .gfInv fld a => Sys2Proof.Machine.execGfInv fld a s
  | .gfAxpy coeff dst src => Sys2Proof.Machine.execGfAxpy coeff dst src s
  | .genDense => Sys2Proof.Machine.execGenDense s
  | .genSparse => Sys2Proof.Machine.execGenSparse s
  | .encWrite => Sys2Proof.Machine.execEncWrite s
  | .encSetdens imm => Sys2Proof.Machine.execEncSetdens imm s
  | .decRead => Sys2Proof.Machine.execDecRead s

end Sys2Proof.Machine
end

