-- ==== Sys2Proof/Machine/HostPort.lean ====
section
/-! DEFINITION. The host port: the address map, register and window accesses, bus errors and the busy lock (spec/20_memory R70-R83,
spec/10_state R22-R45, spec/60_exceptions R275, R279, R280). -/

namespace Sys2Proof.Machine

open Sys2Proof

/-- The registers of the register map (10_state, section 2). -/
inductive Reg where
  | id | param0 | param1 | ctrl | cmd | status | errflags | result
  | cfg0 | cfgSymbols | cfgSymsize | cfgDensity | genSeed | plen | psize | hsize
  | rank | cursor | density | seedLast | acfg0 | asymbols | asymsize
  | piv (n : Nat)
  /-- an offset the map does not name (R22) -/
  | reserved
deriving DecidableEq, Repr

/-- The registers at the offsets 0x000, 0x004, …, 0x058, in order (10_state, section 2). -/
def regList : List Reg :=
  [.id, .param0, .param1, .ctrl, .cmd, .status, .errflags, .result,
   .cfg0, .cfgSymbols, .cfgSymsize, .cfgDensity, .genSeed, .plen, .psize, .hsize,
   .rank, .cursor, .density, .seedLast, .acfg0, .asymbols, .asymsize]

/-- The register at a word-aligned offset of the register page (R22): PIVn at 0x080 + 4n (R45). -/
def regAt (off : Nat) : Reg :=
  if 0x80 ≤ off ∧ off < 0xA0 then .piv ((off - 0x80) / 4) else regList.getD (off / 4) .reserved

/-- PARAM0 (R25): {S_MAX, K_MAX}. -/
def param0Word (p : Params) : Word := BitVec.ofNat 16 p.sMax ++ BitVec.ofNat 16 p.kMax

/-- PARAM1 (R26). -/
def param1Word (p : Params) : Word := BitVec.ofNat 8 p.rerollMax ++ 0#3 ++ p.poly4 ++ 0#7 ++ p.poly8

/-- What a register reads as (R23-R45): WO and reserved registers read 0. -/
def regRead (s : State) : Reg → Word
  | .id => Config.idWord
  | .param0 => param0Word s.params
  | .param1 => param1Word s.params
  | .ctrl => s.ctrl
  | .cmd => 0
  | .status => s.status
  | .errflags => s.errflags
  | .result => s.result
  | .cfg0 => s.cfg0
  | .cfgSymbols => s.cfgSymbols
  | .cfgSymsize => s.cfgSymsize
  | .cfgDensity => s.cfgDensity
  | .genSeed => s.genSeed
  | .plen => s.plen
  | .psize => s.psize
  | .hsize => s.hsize
  | .rank => s.rank
  | .cursor => s.cursor
  | .density => s.density
  | .seedLast => s.seedLast
  | .acfg0 => s.acfg0
  | .asymbols => s.asymbols
  | .asymsize => s.asymsize
  | .piv n => pivWord s.piv n
  | .reserved => 0

/-- The named bits of CTRL (R27). -/
def ctrlMask : Word := 0x1#32
/-- The named bits of CFG0 (R32): FIELD [1:0], FORMAT [5:4], ROLE [8]. -/
def cfg0Mask : Word := 0x133#32
/-- The named bits of CFG_SYMBOLS, CFG_SYMSIZE and CFG_DENSITY (R33-R35). -/
def half16Mask : Word := 0xFFFF#32

/-- STATUS after a write of v: writing 1 to DONE clears it (R23, R29). -/
def writeStatus (v : Word) (s : State) : State := { s with done := s.done && !v.getLsbD 1 }

/-- ERRFLAGS after a write of v: every 1 clears its bit (R23, R30). -/
def writeErrflags (v : Word) (s : State) : State := { s with errflags := s.errflags &&& ~~~v }

/-- A register write that is not locked (R23): RW registers take their named bits, CMD accepts the word, RO and reserved registers
ignore it. -/
def regWrite (v : Word) (s : State) : Reg → State
  | .ctrl => { s with ctrl := v &&& ctrlMask }
  | .cmd => accept v s
  | .status => writeStatus v s
  | .errflags => writeErrflags v s
  | .cfg0 => { s with cfg0 := v &&& cfg0Mask }
  | .cfgSymbols => { s with cfgSymbols := v &&& half16Mask }
  | .cfgSymsize => { s with cfgSymsize := v &&& half16Mask }
  | .cfgDensity => { s with cfgDensity := v &&& half16Mask }
  | .genSeed => { s with genSeed := v }
  | .plen => { s with plen := v }
  | .id => s
  | .param0 => s
  | .param1 => s
  | .result => s
  | .psize => s
  | .hsize => s
  | .rank => s
  | .cursor => s
  | .density => s
  | .seedLast => s
  | .acfg0 => s
  | .asymbols => s
  | .asymsize => s
  | .piv _ => s
  | .reserved => s

/-- The registers the host may write while a command runs (R78). -/
def writableBusy : Reg → Bool
  | .ctrl => true
  | .status => true
  | .errflags => true
  | _ => false

/-- Where a host byte address lies (R70), with its offset there. -/
inductive Place where
  | regs (off : Nat)
  | cvec (off : Nat)
  | rows (off : Nat)
  | pbuf (off : Nat)
  | blk (off : Nat)
  | unmapped
deriving DecidableEq, Repr

/-- The address map of R70. -/
def placeOf (addr : Nat) : Place :=
  if addr < 0x1000 then .regs addr
  else if addr < 0x1100 then .cvec (addr - 0x1000)
  else if addr < 0x10000 then .unmapped
  else if addr < 0x20000 then .rows (addr - 0x10000)
  else if addr < 0x40000 then .pbuf (addr - 0x20000)
  else if addr < 0x1000000 then .unmapped
  else .blk (addr - 0x1000000)

/-- Offsets of the row memory that are entries of ROWS (R49, R71). -/
def rowsInside (p : Params) (off : Nat) : Bool := decide (off / 256 < p.kMax ∧ off % 256 < p.kMax)

/-- The host view of ROWS (R49): the stored entry when its row is held and its column is below k, else 0. -/
def rowsView (s : State) (off : Nat) : Byte :=
  if rowsInside s.params off && pivHeld s.piv (off / 256) && decide (off % 256 < s.k) then s.rows.read off else 0#8

/-- The byte a window shows at a host address (R70, R71): 0 beyond its memory. -/
def viewByte (s : State) (addr : Nat) : Byte :=
  match placeOf addr with
  | .cvec i => if i < s.params.kMax then s.cvec.read i else 0#8
  | .rows off => rowsView s off
  | .pbuf a => if a < pbufBytes s.params then s.pbuf.read a else 0#8
  | .blk a => if a < blockBytes s.params then s.blk.read a else 0#8
  | .regs _ => 0#8
  | .unmapped => 0#8

/-- A byte written at a host address of a window (R71, R79): ignored beyond the memory and in the read-only windows. -/
def pokeByte (s : State) (addr : Nat) (b : Byte) : State :=
  match placeOf addr with
  | .pbuf a => if a < pbufBytes s.params then { s with pbuf := s.pbuf.write a b } else s
  | .blk a => if a < blockBytes s.params then { s with blk := s.blk.write a b } else s
  | .cvec _ => s
  | .rows _ => s
  | .regs _ => s
  | .unmapped => s

/-- The bytes `bs` written at consecutive addresses, ascending (R81). -/
def pokeBytes : State → Nat → List Byte → State
  | s, _, [] => s
  | s, addr, b :: bs => pokeBytes (pokeByte s addr b) (addr + 1) bs

/-- The little-endian word of a list of bytes (R77). -/
def lanes : List Byte → Word
  | [] => 0
  | b :: bs => (lanes bs <<< 8) ||| b.setWidth 32

/-- Bits [8j+7:8j] of a word, for j = 0..n-1 (R77). -/
def unlanes (v : Word) (n : Nat) : List Byte := (List.range n).map (fun j => v.extractLsb' (8 * j) 8)

/-- A bus error (R72, R280): hresp = 1, hrdata = 0. -/
def busError : HostResp := { rdata := 0, error := true }

/-- An OK response. -/
def okResp (v : Word) : HostResp := { rdata := v, error := false }

/-- An access to the register page is legal only with 4 bytes at a multiple of 4 (R74). -/
def regAccessOk (off n : Nat) : Bool := n == 4 && off % 4 == 0

/-- An access to a window goes through only when naturally aligned (R75, R76) and not locked (R78). -/
def windowOpen (s : State) (addr n : Nat) : Bool := !s.busy && addr % n == 0

/-- MemRead(addr, n) (R72): no state changes. -/
def hostRead (s : State) (addr n : Nat) : HostResp :=
  match placeOf addr with
  | .regs off => if regAccessOk off n then okResp (regRead s (regAt off)) else busError
  | .unmapped => busError
  | _ =>
    if windowOpen s addr n then okResp (lanes ((List.range n).map (fun j => viewByte s (addr + j))))
    else busError

/-- A legal register write (R23, R78, R279): while BUSY only CTRL, STATUS and ERRFLAGS are written, and a CMD write sets
ERRFLAGS.BUSY. -/
def hostRegWrite (s : State) (r : Reg) (v : Word) : State × HostResp :=
  if s.busy && !writableBusy r then
    (if r = .cmd then { s with errflags := flagSet s.errflags busyFlag } else s, busError)
  else (regWrite v s r, okResp 0)

/-- MemWrite(addr, n, v) (R73). -/
def hostWrite (s : State) (addr n : Nat) (v : Word) : State × HostResp :=
  match placeOf addr with
  | .regs off => if regAccessOk off n then hostRegWrite s (regAt off) v else (s, busError)
  | .unmapped => (s, busError)
  | _ => if windowOpen s addr n then (pokeBytes s addr (unlanes v n), okResp 0) else (s, busError)

/-- The bytes of a transaction of size code hsize (R7): 1, 2 or 4; code 3 is the width of no access. -/
def sizeBytes (size : BitVec 2) : Option Nat :=
  if size = 0#2 then some 1 else if size = 1#2 then some 2 else if size = 2#2 then some 4 else none

/-- A host transaction as an act of the machine: what `act` does for its number of bytes, its answer kept in `resp` (R7, log 7). A wrong
width is a bus error with no effect, and the host goes on (92_eei_decisions D27; 93_implementation_defined, 14). While rst = 1 the
unit answers none (R300). -/
def hostTransaction (size : BitVec 2) (s : State) (act : Nat → State × HostResp) : Result :=
  if s.rst then .next { s with resp := none }
  else match sizeBytes size with
    | none => .next { s with resp := some busError }
    | some n => .next { (act n).1 with resp := some (act n).2 }

end Sys2Proof.Machine
end

