-- ==== Sys2Proof/Machine/Reset.lean ====
section
/-! DEFINITION. Reset (spec/70_reset_and_hazards R300-R302) and the model's schedule: the acts of the agents of spec/00_scope R6 other
than the engine's turn. -/

namespace Sys2Proof.Machine

open Sys2Proof

/-- The state reset leaves (R60, R300): every register, flag, PIV and CVEC at its reset value, no pending command; BLK, PBUF, ROWS and
SCR hold the draws (R301). What is not the unit's stays: the parameters, the schedule, and the random source's offers (R57). -/
def resetTo (d : PowerOn) (s : State) : State :=
  { State.reset with
    params := s.params
    inbox := s.inbox
    draws := s.draws
    rst := true
    resp := d.abandoned
    blk := Memory.ofCells (fun a => decide (a < blockBytes s.params)) d.blk
    pbuf := Memory.ofCells (fun a => decide (a < pbufBytes s.params)) d.pbuf
    rows := Memory.ofCells (rowsInside s.params) d.rows
    scrV := d.scrV
    scrD := d.scrD }

/-- One act of the host, the random source or the rst input. The engine's turn is Step.lean's. -/
def outsideEvent (e : Event) (s : State) : Result :=
  match e with
  | .read addr size => hostTransaction size s (fun n => (s, hostRead s addr.toNat n))
  | .write addr size data => hostTransaction size s (fun n => hostWrite s addr.toNat n data)
  | .offer w => .next { s with draws := s.draws ++ [w] }
  | .rstRise d => .next (resetTo d s)
  | .rstFall => .next { s with rst := false }
  | .engine => .next s

end Sys2Proof.Machine
end

