-- ==== Sys2Proof/Machine/Step.lean ====
section
/-! DEFINITION. One step of the machine: the next act of the schedule, or the engine's turn when the schedule is empty (spec/20_memory
R85, spec/60_exceptions R276; log 4, log 5). -/

namespace Sys2Proof.Machine

open Sys2Proof

/-- The engine's turn (R272, R276): the pending command runs; an illegal word completes with ILLEGAL (steps 1 and 2 of R272). With no
pending command the unit is idle and keeps all its state (R291), and while rst = 1 it holds the reset state (R300). -/
def engineTurn (s : State) : Host.Outcome State Fault Refusal :=
  if s.rst then .next s
  else match s.pending with
    | none => .next s
    | some w =>
      match decode w with
      | .ok i => exec i s
      | .error _ => raise .illegal s

/-- One step. -/
def step (s : State) : Host.Outcome State Fault Refusal :=
  match s.inbox with
  | [] => engineTurn s
  | .engine :: rest => engineTurn { s with inbox := rest }
  | e :: rest => outsideEvent e { s with inbox := rest }

/-- The state in which the command word of the given bits has been accepted (R275), rst is low and the engine has the next turn, so
that the next step runs exactly that command. -/
def State.withFetchWord (s : State) (nbits w : Nat) : State :=
  { accept (tableWord nbits w) s with rst := false, inbox := .engine :: s.inbox }

end Sys2Proof.Machine
end

