-- ==== Sys2Proof/Machine/Assembler.lean ====
section
/-! DEFINITION. The assembler lines of spec/30_encoding R110-R112, with their operands read as numbers, and the host actions of R113. Their
text is AsmText.lean's. -/

namespace Sys2Proof.Machine

open Sys2Proof

/-- A `<fld>` name as written: the three of R110, or any other. -/
inductive FldName where
  | gf2
  | gf16
  | gf256
  | other
deriving DecidableEq, Repr

/-- One assembler line, operands in the order R110 writes them; the last four are the pseudo-instructions of R112. The real number d of
`enc.setdens.f` is num/den. -/
inductive AsmLine where
  | nop
  | init
  | gfAdd (fld : FldName) (a b : Nat)
  | gfMul (fld : FldName) (a b : Nat)
  | gfInv (fld : FldName) (a : Nat)
  | gfAxpy (dst coeff src : Nat)
  | genDense
  | genSparse
  | encWrite
  | encSetdens (imm : Nat)
  | decRead
  | gfSub (fld : FldName) (a b : Nat)
  | gfSq (fld : FldName) (a : Nat)
  | encSetdensF (num den : Nat)
  | axpyXor (dst src : Nat)
deriving DecidableEq, Repr

/-- The code of a `<fld>` name (R110); other names are refused (R111). -/
def fldCode : FldName → Option (BitVec 2)
  | .gf2 => some 0#2
  | .gf16 => some 1#2
  | .gf256 => some 2#2
  | .other => none

/-- A numeric operand that fits its field of `n` bits, or a refusal (R111). -/
def asmField (n v : Nat) : Option (BitVec n) := if v < 2 ^ n then some (BitVec.ofNat n v) else none

/-- A line of format F with two operands. -/
def asmF (mk : BitVec 2 → Byte → Byte → Instr) (fld : FldName) (a b : Nat) : Option Instr :=
  match fldCode fld, asmField 8 a, asmField 8 b with
  | some f, some x, some y => some (mk f x y)
  | _, _, _ => none

/-- A line of format X. -/
def asmX (dst coeff src : Nat) : Option Instr :=
  match asmField 8 coeff, asmField 8 dst, asmField 8 src with
  | some c, some d, some s => some (.gfAxpy c d s)
  | _, _, _ => none

/-- The density code of d = num/den: floor(d * 32768 + 0.5) (R112, R180); d outside [0, 1] is refused. -/
def densityCode (num den : Nat) : Option (BitVec 16) :=
  if den = 0 ∨ den < num then none else asmField 16 ((65536 * num + den) / (2 * den))

/-- The command a line stands for (R110, R112). -/
def asmInstr : AsmLine → Option Instr
  | .nop => some .nop
  | .init => some .init
  | .gfAdd fld a b => asmF .gfAdd fld a b
  | .gfMul fld a b => asmF .gfMul fld a b
  | .gfInv fld a => asmF (fun f x _ => .gfInv f x) fld a 0
  | .gfAxpy dst coeff src => asmX dst coeff src
  | .genDense => some .genDense
  | .genSparse => some .genSparse
  | .encWrite => some .encWrite
  | .encSetdens imm => (asmField 16 imm).map .encSetdens
  | .decRead => some .decRead
  | .gfSub fld a b => asmF .gfAdd fld a b
  | .gfSq fld a => asmF .gfMul fld a a
  | .encSetdensF num den => (densityCode num den).map .encSetdens
  | .axpyXor dst src => asmX dst 1 src

/-- The word a line assembles to (R110). -/
def assemble (l : AsmLine) : Option Word := (asmInstr l).map encode

/-- `W32 <addr>, <v>` (R113). The spec is silent on an address of 2^25 or more: haddr takes its low 25 bits (DESIGN CHOICE, log 6). -/
def hostW32 (addr v : Nat) : Event := .write (BitVec.ofNat 25 addr) 2#2 (BitVec.ofNat 32 v)

/-- `W16 <addr>, <v>`, which R305 names and R113 does not define: `MemWrite(addr, 2, v)` (DESIGN CHOICE, log 19); the address as in
`hostW32` (DESIGN CHOICE, log 6). -/
def hostW16 (addr v : Nat) : Event := .write (BitVec.ofNat 25 addr) 1#2 (BitVec.ofNat 32 v)

/-- `W8 <addr>, <v>` (R113); the address as in `hostW32` (DESIGN CHOICE, log 6). -/
def hostW8 (addr v : Nat) : Event := .write (BitVec.ofNat 25 addr) 0#2 (BitVec.ofNat 32 v)

/-- `R32 <addr>` (R113); the address as in `hostW32` (DESIGN CHOICE, log 6). -/
def hostR32 (addr : Nat) : Event := .read (BitVec.ofNat 25 addr) 2#2

/-- `CMD <asm>` (R113): the write of the line's word to CMD. -/
def hostCmd (l : AsmLine) : Option Event := (assemble l).map (fun w => .write 0x10#25 2#2 w)

end Sys2Proof.Machine
end

