-- ==== Sys2Proof/Machine/AsmText.lean ====
section
/-! DEFINITION. Reading the text of assembler lines and of host programs (spec/30_encoding R110-R113), as lists of characters. -/

namespace Sys2Proof.Machine

open Sys2Proof

/-- Spaces separate words and stand around operands (log 14). -/
def isBlank (c : Char) : Bool := c == ' ' || c == '\t'

/-- The characters without the blanks at both ends. -/
def trimmed (cs : List Char) : List Char := ((cs.dropWhile isBlank).reverse.dropWhile isBlank).reverse

/-- The line before its comment (R113). -/
def beforeComment (cs : List Char) : List Char := trimmed (cs.takeWhile (fun c => c != ';'))

/-- The parts of a text between separators. -/
def splitAtChar (sep : Char) : List Char → List (List Char)
  | [] => [[]]
  | c :: cs =>
    if c == sep then [] :: splitAtChar sep cs
    else match splitAtChar sep cs with
      | [] => [[c]]
      | w :: ws => (c :: w) :: ws

/-- The first word of a text. -/
def firstWord (cs : List Char) : List Char := cs.takeWhile (fun c => !isBlank c)

/-- A text after its first word. -/
def afterWord (cs : List Char) : List Char := trimmed (cs.dropWhile (fun c => !isBlank c))

/-- Comma-separated operands (R110); none in an empty text. -/
def operandTexts (cs : List Char) : List (List Char) :=
  if cs.isEmpty then [] else (splitAtChar ',' cs).map trimmed

/-- The value of a hexadecimal digit. -/
def digitValue (c : Char) : Option Nat :=
  if '0' ≤ c ∧ c ≤ '9' then some (c.toNat - 48)
  else if 'a' ≤ c ∧ c ≤ 'f' then some (c.toNat - 87)
  else if 'A' ≤ c ∧ c ≤ 'F' then some (c.toNat - 55)
  else none

/-- The digits of a base, most significant first, after the value `acc` read so far. -/
def readDigits (base acc : Nat) : List Char → Option Nat
  | [] => some acc
  | c :: cs =>
    match digitValue c with
    | some d => if d < base then readDigits base (base * acc + d) cs else none
    | none => none

/-- A numeral of a base: at least one digit. -/
def readNumeral (base : Nat) (cs : List Char) : Option Nat := if cs.isEmpty then none else readDigits base 0 cs

/-- A number: decimal, or hexadecimal with a `0x` prefix (R111). -/
def readNumber : List Char → Option Nat
  | '0' :: 'x' :: cs => readNumeral 16 cs
  | cs => readNumeral 10 cs

/-- The real number d of `enc.setdens.f` as a fraction: digits, or digits with a decimal point. -/
def readReal (cs : List Char) : Option (Nat × Nat) :=
  match splitAtChar '.' cs with
  | [a] => (readNumeral 10 a).map (fun n => (n, 1))
  | [a, b] => if b.isEmpty then none else (readNumeral 10 (a ++ b)).map (fun n => (n, 10 ^ b.length))
  | _ => none

/-- A `<fld>` name (R110). -/
def readFld (cs : List Char) : FldName :=
  match String.ofList cs with
  | "gf2" => .gf2
  | "gf16" => .gf16
  | "gf256" => .gf256
  | _ => .other

/-- Two numbers. -/
def read2 (mk : Nat → Nat → AsmLine) (a b : List Char) : Option AsmLine :=
  match readNumber a, readNumber b with
  | some x, some y => some (mk x y)
  | _, _ => none

/-- Three numbers. -/
def read3 (mk : Nat → Nat → Nat → AsmLine) (a b c : List Char) : Option AsmLine :=
  match readNumber a, readNumber b, readNumber c with
  | some x, some y, some z => some (mk x y z)
  | _, _, _ => none

/-- A line from its mnemonic and its operands (R110, R112). -/
def readOperands (mnemonic : List Char) (ops : List (List Char)) : Option AsmLine :=
  match String.ofList mnemonic, ops with
  | "nop", [] => some .nop
  | "init", [] => some .init
  | "gf.add", [f, a, b] => read2 (AsmLine.gfAdd (readFld f)) a b
  | "gf.mul", [f, a, b] => read2 (AsmLine.gfMul (readFld f)) a b
  | "gf.inv", [f, a] => (readNumber a).map (AsmLine.gfInv (readFld f))
  | "gf.axpy", [d, c, s] => read3 AsmLine.gfAxpy d c s
  | "gen.dense", [] => some .genDense
  | "gen.sparse", [] => some .genSparse
  | "enc.write", [] => some .encWrite
  | "enc.setdens", [m] => (readNumber m).map AsmLine.encSetdens
  | "dec.read", [] => some .decRead
  | "gf.sub", [f, a, b] => read2 (AsmLine.gfSub (readFld f)) a b
  | "gf.sq", [f, a] => (readNumber a).map (AsmLine.gfSq (readFld f))
  | "enc.setdens.f", [d] => (readReal d).map (fun r => AsmLine.encSetdensF r.1 r.2)
  | "axpy.xor", [d, s] => read2 AsmLine.axpyXor d s
  | _, _ => none

/-- An assembler line (R110-R112). -/
def readAsm (line : List Char) : Option AsmLine :=
  readOperands (firstWord (beforeComment line)) (operandTexts (afterWord (beforeComment line)))

/-- The word of a line of text; none where the assembler refuses it (R111). -/
def assembleText (line : List Char) : Option Word :=
  match readAsm line with
  | some l => assemble l
  | none => none

/-- One line of a host program (R113), with the `W16` of R305 (log 19). -/
inductive HostLine where
  /-- `W32 <addr>, <v>` -/
  | w32 (addr v : Nat)
  /-- `W16 <addr>, <v>`, the model's reading of R305 (DESIGN CHOICE, log 19) -/
  | w16 (addr v : Nat)
  /-- `W8 <addr>, <v>` -/
  | w8 (addr v : Nat)
  /-- `R32 <addr> -> <name>` -/
  | r32 (addr : Nat) (name : List Char)
  /-- `CMD <asm>` -/
  | cmd (line : AsmLine)
  /-- `WAIT` -/
  | wait
deriving DecidableEq, Repr

/-- The names that stand for addresses: the registers of 10_state, section 2, and the windows of R70. -/
def addressOfName (cs : List Char) : Option Nat :=
  match String.ofList cs with
  | "ID" => some 0x000
  | "PARAM0" => some 0x004
  | "PARAM1" => some 0x008
  | "CTRL" => some 0x00C
  | "CMD" => some 0x010
  | "STATUS" => some 0x014
  | "ERRFLAGS" => some 0x018
  | "RESULT" => some 0x01C
  | "CFG0" => some 0x020
  | "CFG_SYMBOLS" => some 0x024
  | "CFG_SYMSIZE" => some 0x028
  | "CFG_DENSITY" => some 0x02C
  | "GEN_SEED" => some 0x030
  | "PLEN" => some 0x034
  | "PSIZE" => some 0x038
  | "HSIZE" => some 0x03C
  | "RANK" => some 0x040
  | "CURSOR" => some 0x044
  | "DENSITY" => some 0x048
  | "SEED_LAST" => some 0x04C
  | "ACFG0" => some 0x050
  | "ASYMBOLS" => some 0x054
  | "ASYMSIZE" => some 0x058
  | "PIV0" => some 0x080
  | "PIV1" => some 0x084
  | "PIV2" => some 0x088
  | "PIV3" => some 0x08C
  | "PIV4" => some 0x090
  | "PIV5" => some 0x094
  | "PIV6" => some 0x098
  | "PIV7" => some 0x09C
  | "CVEC" => some 0x1000
  | "ROWS" => some 0x10000
  | "PBUF" => some 0x20000
  | "BLK" => some 0x1000000
  | _ => none

/-- A name or a number. -/
def readFactor (cs : List Char) : Option Nat :=
  match addressOfName cs with
  | some a => some a
  | none => readNumber cs

/-- A product of factors. -/
def readProduct : List (List Char) → Option Nat
  | [] => some 1
  | f :: fs =>
    match readFactor (trimmed f), readProduct fs with
    | some a, some b => some (a * b)
    | _, _ => none

/-- A sum of products. -/
def readSum : List (List Char) → Option Nat
  | [] => some 0
  | t :: ts =>
    match readProduct (splitAtChar '*' t), readSum ts with
    | some a, some b => some (a + b)
    | _, _ => none

/-- An address: `BLK+a`, `ROWS+p*256+c`, a register's name, or a number (R113). R113 does not say which other expressions a line may hold:
this takes every sum of products of names and numbers (DESIGN CHOICE, log 14). -/
def readAddress (cs : List Char) : Option Nat := readSum (splitAtChar '+' cs)

/-- `<addr>, <v>`. -/
def readWrite (mk : Nat → Nat → HostLine) (rest : List Char) : Option HostLine :=
  match operandTexts rest with
  | [a, v] =>
    match readAddress a, readNumber v with
    | some x, some y => some (mk x y)
    | _, _ => none
  | _ => none

/-- `<addr> -> <name>`. R113 does not say what a name may be: this takes any text without `>`, the empty one too (DESIGN CHOICE,
log 14). -/
def readRead (rest : List Char) : Option HostLine :=
  match splitAtChar '>' rest with
  | [a, name] =>
    if a.getLast? == some '-' then (readAddress (trimmed a.dropLast)).map (fun x => HostLine.r32 x (trimmed name)) else none
  | _ => none

/-- A line of a host program (R113). It is none for a malformed line, and for one with no host action, which `readProgram` passes over
(DESIGN CHOICE, log 17). -/
def readHostLine (line : List Char) : Option HostLine :=
  match String.ofList (firstWord (beforeComment line)) with
  | "W32" => readWrite HostLine.w32 (afterWord (beforeComment line))
  | "W16" => readWrite HostLine.w16 (afterWord (beforeComment line))
  | "W8" => readWrite HostLine.w8 (afterWord (beforeComment line))
  | "R32" => readRead (afterWord (beforeComment line))
  | "CMD" => (readAsm (afterWord (beforeComment line))).map HostLine.cmd
  | "WAIT" => if (afterWord (beforeComment line)).isEmpty then some .wait else none
  | _ => none

/-- The text of a host program, line by line (R113). A line that holds only a comment, or nothing, is no host action, and one malformed
line makes the whole text no program (DESIGN CHOICE, log 17). -/
def readProgram : List (List Char) → Option (List HostLine)
  | [] => some []
  | line :: lines =>
    if (beforeComment line).isEmpty then readProgram lines
    else match readHostLine line, readProgram lines with
      | some l, some ls => some (l :: ls)
      | _, _ => none

/-- The host transaction of a line; for WAIT the read of STATUS that its loop repeats (R113). -/
def HostLine.transaction : HostLine → Option Event
  | .w32 addr v => some (hostW32 addr v)
  | .w16 addr v => some (hostW16 addr v)
  | .w8 addr v => some (hostW8 addr v)
  | .r32 addr _ => some (hostR32 addr)
  | .cmd line => hostCmd line
  | .wait => some (hostR32 0x14)

/-- The host goes on to the next line: after WAIT only when the answer's bit 0, BUSY, is 0 (R113). -/
def HostLine.over (line : HostLine) (answer : Word) : Bool :=
  match line with
  | .wait => !answer.getLsbD 0
  | .w32 _ _ => true
  | .w16 _ _ => true
  | .w8 _ _ => true
  | .r32 _ _ => true
  | .cmd _ => true

end Sys2Proof.Machine
end

