-- ==== Sys2Proof/Machine/HostRun.lean ====
section
/-! DEFINITION. A run of a host program on one unit, when it is over, and its outcome (spec/70_reset_and_hazards R308-R310). -/

namespace Sys2Proof.Machine

open Sys2Proof

/-- A host program in progress on a unit. -/
structure HostRun where
  /-- the actions that have not finished, the next one first -/
  rest : List HostLine
  /-- the values that `R32` has named (R113), oldest first -/
  named : List (List Char × Word)
  /-- the unit, with nothing in its schedule -/
  unit : State
deriving DecidableEq, Repr

/-- Whose turn it is in a run (R308, R309): the host's, the engine's, or the random source's. -/
inductive RunTurn where
  | host
  | engine
  | offer (word : Word)
deriving DecidableEq, Repr

/-- What a program finds (R301, R302): a unit with these parameters right after a reset with these draws, rst low. -/
def HostRun.start (p : Params) (d : PowerOn) (program : List HostLine) : HostRun :=
  { rest := program, named := [], unit := { resetTo d { State.reset with params := p } with rst := false, resp := none } }

/-- One step of the unit with one act in its schedule. -/
def stepWith (e : Event) (s : State) : Result := step { s with inbox := [e] }

/-- The unit's state after a step, which never stops (R270, R280). -/
def nextState : Result → Option State
  | .next t => some t
  | .fault _ => none
  | .refused _ => none

/-- What an action has named when its answer comes (R113). Whether the st of WAIT's loop stays named after it R113 does not say: here
WAIT names nothing (DESIGN CHOICE, log 18). -/
def HostLine.naming (l : HostLine) (answer : Word) : List (List Char × Word) :=
  match l with
  | .r32 _ name => [(name, answer)]
  | .w32 _ _ => []
  | .w16 _ _ => []
  | .w8 _ _ => []
  | .cmd _ => []
  | .wait => []

/-- The run after the host's transaction for action `l` has left the unit in `t`: the next action comes when `l` has its answer and is
over. A bus error is an answer like another, with data 0 (R72), so the program goes on (R310). -/
def HostRun.answered (r : HostRun) (l : HostLine) (ls : List HostLine) (t : State) : HostRun :=
  match t.resp with
  | none => { r with unit := t }
  | some a =>
    if l.over a.rdata then { rest := ls, named := r.named ++ l.naming a.rdata, unit := t } else { r with unit := t }

/-- The host's turn: the transaction of its next action. None when the program has no action left, or its action is no line the
assembler takes (R111). -/
def HostRun.hostTurn (r : HostRun) : Option HostRun :=
  match r.rest with
  | [] => none
  | l :: ls => (l.transaction.bind (fun e => nextState (stepWith e r.unit))).map (r.answered l ls)

/-- One turn of a run. -/
def HostRun.turn (t : RunTurn) (r : HostRun) : Option HostRun :=
  match t with
  | .host => r.hostTurn
  | .engine => (nextState (stepWith .engine r.unit)).map (fun u => { r with unit := u })
  | .offer w => (nextState (stepWith (.offer w) r.unit)).map (fun u => { r with unit := u })

/-- A run through some turns. -/
def HostRun.through : List RunTurn → HostRun → Option HostRun
  | [], r => some r
  | t :: ts, r => (r.turn t).bind (HostRun.through ts)

/-- The run is over (R310): the last action has finished and BUSY = 0. A run whose last CMD is pending, or that is stalled for a draw, is
not. -/
def HostRun.isOver (r : HostRun) : Bool := r.rest.isEmpty && !r.unit.busy

/-- The registers of the register map, in the order of their offsets (10_state, section 2). -/
def allRegs : List Reg := regList ++ (List.range 8).map Reg.piv

/-- The register and memory state that is the outcome of a run (R310). -/
structure RunOutcome where
  /-- what `allRegs` read as -/
  registers : List Word
  cvec : Memory
  rows : Memory
  pbuf : Memory
  blk : Memory
deriving DecidableEq, Repr

/-- The outcome of a run, when it is over (R310). -/
def HostRun.outcome (r : HostRun) : Option RunOutcome :=
  if r.isOver then
    some { registers := allRegs.map (regRead r.unit), cvec := r.unit.cvec, rows := r.unit.rows, pbuf := r.unit.pbuf, blk := r.unit.blk }
  else none

end Sys2Proof.Machine
end

