-- ==== Sys2Proof/Safety.lean ====
section
/-! DEFINITION. The vocabulary of the claims: what every state between steps keeps (spec/10_state R58, and the reset and INIT rules),
the reduced row-echelon form of the held rows (R59), what it is for the held rows to be true of a block (spec/44_decoder R235), the
sums that the decoder's rules speak of, and the host's view of memory. -/

namespace Sys2Proof.Machine

open Sys2Proof

/-! ### The structural invariant -/

/-- The four memories are in canonical form. -/
def canonical (s : State) : Bool := s.blk.wf && s.pbuf.wf && s.cvec.wf && s.rows.wf

/-- The memories list only offsets that exist (R8, R46-R49). -/
def bounded (s : State) : Bool :=
  s.blk.within (fun a => decide (a < blockBytes s.params)) && s.pbuf.within (fun a => decide (a < pbufBytes s.params))
    && s.rows.within (rowsInside s.params) && s.cvec.within (fun i => decide (i < s.k))

/-- Reserved register bits read 0 (R22, R27, R30-R35, R42, R44). -/
def reservedZero (s : State) : Bool :=
  s.ctrl &&& ~~~ctrlMask == 0 && s.errflags &&& ~~~0x7E#32 == 0 && s.result &&& ~~~0xFF#32 == 0
    && s.cfg0 &&& ~~~cfg0Mask == 0 && s.cfgSymbols &&& ~~~half16Mask == 0 && s.cfgSymsize &&& ~~~half16Mask == 0
    && s.cfgDensity &&& ~~~half16Mask == 0 && s.acfg0 &&& ~~~cfg0Mask == 0

/-- The active configuration is one INIT accepts, with its header and payload sizes (R131, R252, R253). -/
def activeOk (s : State) : Bool :=
  decide ((cfgField s.acfg0).toNat ≤ 2 ∧ s.format.toNat ≤ 1 ∧ 1 ≤ s.k ∧ s.k ≤ s.params.kMax
    ∧ 1 ≤ s.symSize ∧ s.symSize ≤ s.params.sMax ∧ s.hdr = headerSize s.field s.format s.k
    ∧ s.psize.toNat = s.hdr + s.symSize ∧ s.dens ≤ 0x8000)

/-- An encoder instance holds no decoder state, and CODED = 1 exactly when the cursor is past the last symbol (R40, R41, R53). -/
def encoderOk (s : State) : Bool :=
  s.rank == 0 && s.piv == 0 && s.lastRead == .none && !s.unit && decide (s.cursor.toNat ≤ s.k)
    && s.coded == decide (s.cursor.toNat = s.k)

/-- A decoder instance holds no encoder state (R41, R53); RANK is at most k and no pivot at or above k is held (R58). -/
def decoderOk (s : State) : Bool :=
  s.cursor == 0 && !s.coded && s.seedLast == 0 && decide (s.rank.toNat ≤ s.k) && decide (s.piv.toNat < 2 ^ s.k)

/-- Without an instance the instance registers are 0 (R38, R39, R44, R131). -/
def emptyOk (s : State) : Bool :=
  s.acfg0 == 0 && s.asymbols == 0 && s.asymsize == 0 && s.hsize == 0 && s.psize == 0 && s.density == 0
    && s.rank == 0 && s.cursor == 0 && s.seedLast == 0 && s.piv == 0 && !s.coded && !s.unit && s.lastRead == .none

/-- While a command is pending DONE and ERR are 0 (R29, R275). -/
def busyOk (s : State) : Bool := !s.busy || (!s.done && s.err == .none)

/-- What every step keeps. -/
structure Inv (s : State) : Prop where
  legal : paramsLegal s.params = true
  canonical : canonical s = true
  bounded : bounded s = true
  reserved : reservedZero s = true
  active : s.configured = true → activeOk s = true
  encoder : s.configured = true → s.isDecoder = false → encoderOk s = true
  decoder : s.configured = true → s.isDecoder = true → decoderOk s = true
  empty : s.configured = false → emptyOk s = true
  busy : busyOk s = true

/-! ### The held rows -/

/-- ROWS[r][c] as stored (R49). -/
def entry (s : State) (r c : Nat) : Byte := s.rows.read (rowAt r + c)

/-- Row r is a held pivot row (R50). -/
def held (s : State) (r : Nat) : Prop := r < s.k ∧ pivHeld s.piv r = true

/-- The held rows are in fully reduced row-echelon form (R59), with elements of the active field (R49), and RANK is the number of held
rows (R58). -/
structure Rref (s : State) : Prop where
  rankCount : s.rank.toNat = pivCount s.piv s.k
  pivotOne : ∀ r, held s r → entry s r r = 1#8
  zeroBefore : ∀ r c, held s r → c < r → entry s r c = 0#8
  zeroAtPivots : ∀ r r', held s r → held s r' → r' ≠ r → entry s r r' = 0#8
  elements : ∀ r c, held s r → c < s.k → s.field.holds (entry s r c) = true

/-- XOR over i < n of f i. -/
def xorSum (n : Nat) (f : Nat → Byte) : Byte := (List.range n).foldl (fun acc i => acc ^^^ f i) 0#8

/-- Byte t of the combination of the block's symbols with the coefficients v: Σ_c v[c] · x_c (R202, R235). -/
def combination (p : Params) (F : Field) (S : Nat) (v : List Byte) (block : Memory) (t : Nat) : Byte :=
  xorSum v.length (fun c => mulb p F (v.getD c 0#8) (block.read (symAt S c + t)))

/-- The held rows are true of `block`: sym(r) is the combination of the block's symbols with the coefficients ROWS[r] (R235). -/
def trueOf (block : Memory) (s : State) : Prop :=
  ∀ r t, held s r → t < s.symSize →
    s.blk.read (symAt s.symSize r + t) = combination s.params s.field s.symSize (rowVec s.rows s.k r) block t

/-- The payload in PBUF with coding vector v is true of `block`. -/
def payloadTrueOf (block : Memory) (v : List Byte) (s : State) : Prop :=
  ∀ t, t < s.symSize → s.pbuf.read (s.hdr + t) = combination s.params s.field s.symSize v block t

/-- Entry c of the vector v after elimination with the held rows, as one sum: v[c] − Σ_j v[j] · ROWS[j][c] (R226). -/
def residueVec (s : State) (v : List Byte) (c : Nat) : Byte :=
  v.getD c 0#8 ^^^ xorSum s.k (fun j => if pivHeld s.piv j then mulF s.params s.field (v.getD j 0#8) (entry s j c) else 0#8)

/-- Byte t of the payload's body after elimination with the held rows, as one sum (R226). -/
def residueData (s : State) (v : List Byte) (t : Nat) : Byte :=
  s.pbuf.read (s.hdr + t) ^^^
    xorSum s.k (fun j =>
      if pivHeld s.piv j then mulb s.params s.field (v.getD j 0#8) (s.blk.read (symAt s.symSize j + t)) else 0#8)

/-- A vector of k elements of the active field. -/
def isVector (s : State) (v : List Byte) : Prop := v.length = s.k ∧ ∀ x ∈ v, s.field.holds x = true

/-- The payload in PBUF is one DEC.READ rejects, by the length check of R221 or the header checks of R223. -/
def malformed (s : State) : Prop :=
  s.plen ≠ s.psize ∨ s.pbuf.read 1 ≠ (cfgField s.acfg0).setWidth 8
    ∨ (s.pbuf.read 0 ≠ 0x00#8 ∧ s.pbuf.read 0 ≠ (if s.format = 0#2 then 0x01#8 else 0x02#8))
    ∨ (s.pbuf.read 0 = 0x00#8 ∧ s.k ≤ (s.pbuf.read 2).toNat)
    ∨ (s.pbuf.read 0 = 0x02#8 ∧ 0x8000 < 256 * (s.pbuf.read 6).toNat + (s.pbuf.read 7).toNat)

/-! ### Steps -/

/-- It is the engine's turn with the command word w pending. -/
def engineHas (w : Word) (rest : List Event) (s : State) : Prop :=
  s.inbox = .engine :: rest ∧ s.rst = false ∧ s.pending = some w

/-- The number of random draws a command takes in a state in which it passes the common checks (R276). -/
def drawsTaken (s : State) : Instr → Nat
  | .genDense => s.k
  | .encWrite => if s.coded = false then 0 else if s.format = 0#2 then s.k else 1
  | .nop => 0
  | .init => 0
  | .gfAdd _ _ _ => 0
  | .gfMul _ _ _ => 0
  | .gfInv _ _ => 0
  | .gfAxpy _ _ _ => 0
  | .genSparse => 0
  | .encSetdens _ => 0
  | .decRead => 0

/-- The needs of a command (R273): an instance. -/
def needsInstance : Instr → Bool
  | .gfAxpy _ _ _ => true
  | .genDense => true
  | .genSparse => true
  | .encWrite => true
  | .encSetdens _ => true
  | .decRead => true
  | .nop => false
  | .init => false
  | .gfAdd _ _ _ => false
  | .gfMul _ _ _ => false
  | .gfInv _ _ => false

/-- The needs of a command (R273): a role, true = decoder. -/
def needsRole : Instr → Option Bool
  | .encWrite => some false
  | .encSetdens _ => some false
  | .decRead => some true
  | .nop => none
  | .init => none
  | .gfAdd _ _ _ => none
  | .gfMul _ _ _ => none
  | .gfInv _ _ => none
  | .gfAxpy _ _ _ => none
  | .genDense => none
  | .genSparse => none

/-- The operand ranges of steps 2 and 4 of R272. -/
def operandsOk (s : State) : Instr → Prop
  | .gfAdd fld a b => fld ≠ 3#2 ∧ a.toNat < (Field.ofCode fld).size ∧ b.toNat < (Field.ofCode fld).size
  | .gfMul fld a b => fld ≠ 3#2 ∧ a.toNat < (Field.ofCode fld).size ∧ b.toNat < (Field.ofCode fld).size
  | .gfInv fld a => fld ≠ 3#2 ∧ a.toNat < (Field.ofCode fld).size
  | .gfAxpy coeff dst src => coeff.toNat < s.field.size ∧ dst.toNat < s.k ∧ src.toNat < s.k
  | .nop => True
  | .init => True
  | .genDense => True
  | .genSparse => True
  | .encWrite => True
  | .encSetdens _ => True
  | .decRead => True

/-- The state has the instance and the role the command needs (step 3 of R272). -/
def instanceOk (s : State) (i : Instr) : Prop :=
  needsInstance i = true → s.configured = true ∧ ∀ d, needsRole i = some d → s.isDecoder = d

/-- The parts of the state of the table of R91. -/
inductive Part where
  | activeConfig
  | result
  | rankPiv
  | readStatus
  | rows
  | scratch
  | cvec
  | pbufPlen
  | blk
  | cursorCoded
  | seedLast
  | density
  | draws
deriving DecidableEq, Repr

/-- The writes of the table of R91, the draws of R276 taken counted as a write of the offers. -/
def mayWrite : Instr → List Part
  | .nop => []
  | .init => [.activeConfig, .rankPiv, .readStatus, .cvec, .cursorCoded, .seedLast, .density]
  | .gfAdd _ _ _ => [.result]
  | .gfMul _ _ _ => [.result]
  | .gfInv _ _ => [.result]
  | .gfAxpy _ _ _ => [.blk]
  | .genDense => [.cvec, .draws]
  | .genSparse => [.cvec]
  | .encWrite => [.pbufPlen, .cvec, .cursorCoded, .seedLast, .draws]
  | .encSetdens _ => [.density]
  | .decRead => [.cvec, .scratch, .rows, .rankPiv, .blk, .readStatus]

/-- `t` holds what `s` holds in a part of the state. -/
def sameIn (s t : State) : Part → Prop
  | .activeConfig => t.acfg0 = s.acfg0 ∧ t.asymbols = s.asymbols ∧ t.asymsize = s.asymsize ∧ t.hsize = s.hsize
      ∧ t.psize = s.psize ∧ t.configured = s.configured
  | .result => t.result = s.result
  | .rankPiv => t.rank = s.rank ∧ t.piv = s.piv
  | .readStatus => t.lastRead = s.lastRead ∧ t.unit = s.unit
  | .rows => t.rows = s.rows
  | .scratch => t.scrV = s.scrV ∧ t.scrD = s.scrD
  | .cvec => t.cvec = s.cvec
  | .pbufPlen => t.pbuf = s.pbuf ∧ t.plen = s.plen
  | .blk => t.blk = s.blk
  | .cursorCoded => t.cursor = s.cursor ∧ t.coded = s.coded
  | .seedLast => t.seedLast = s.seedLast
  | .density => t.density = s.density
  | .draws => t.draws = s.draws

end Sys2Proof.Machine
end

