-- ==== Sys2Proof/Certificates/Slice0/Obligations.lean ====
section
/-! DEFINITION. The statements for the provers, from the numbered rules of spec/. The vocabulary is Safety.lean's; `complete e s` is the
completion of R278 with code e. -/

open Sys2Proof Sys2Proof.Machine

/-! ### Encoding -/

/-- R107, R108, R110, R111, with the words of R114 (which the spec derives from them): the six worked encodings, from their text
to the word and from the word to the command, and the three illegal words. -/
def Obligations.WorkedEncodingsDecode : Prop :=
  (assembleText "gf.mul gf256, 0x53, 0xCA".toList = some 0x110253CA#32
      ∧ decode 0x110253CA#32 = .ok (.gfMul 2#2 0x53#8 0xCA#8))
    ∧ (assembleText "gf.inv gf256, 0x53".toList = some 0x12025300#32
        ∧ decode 0x12025300#32 = .ok (.gfInv 2#2 0x53#8))
    ∧ (assembleText "gf.add gf16, 0x9, 0x3".toList = some 0x10010903#32
        ∧ decode 0x10010903#32 = .ok (.gfAdd 1#2 0x09#8 0x03#8))
    ∧ (assembleText "gf.axpy 0, 0x02, 1".toList = some 0x13020001#32
        ∧ decode 0x13020001#32 = .ok (.gfAxpy 0x02#8 0x00#8 0x01#8))
    ∧ (assembleText "enc.setdens 0x4000".toList = some 0x31004000#32
        ∧ decode 0x31004000#32 = .ok (.encSetdens 0x4000#16))
    ∧ (assembleText "dec.read".toList = some 0x40000000#32 ∧ decode 0x40000000#32 = .ok .decRead)
    ∧ decode 0x12025301#32 = .error .reservedBits
    ∧ decode 0x10030102#32 = .error .fieldCodeThree
    ∧ decode 0x50000000#32 = .error .reservedOpcode

/-- R107, R108, and the decoder of R109 (which the spec derives from them): the word of a well-formed command decodes to it, for
every operand value. -/
def Obligations.DecodeEncodeAgree : Prop :=
  ∀ i : Instr, i.wellFormed = true → decode (encode i) = .ok i

/-- R107, R108, and the decoder of R109 (which the spec derives from them): a word that decodes is the word of a well-formed
command, so each legal word has one meaning. -/
def Obligations.EncodeDecodeAgree : Prop :=
  ∀ (w : Word) (i : Instr), decode w = .ok i → i.wellFormed = true ∧ encode i = w

/-- R108, with the order of steps 1 and 2 of R272: a word is rejected as a reserved opcode exactly when its OPC is none of the
eleven of R107, for reserved bits exactly when its OPC is one of them and a fixed-zero bit of its row is set, and as FLD = 3
exactly when it is a GF.ADD, GF.MUL or GF.INV word with its fixed bits 0 and FLD = 3. -/
def Obligations.DecoderRejectsTheThreeKinds : Prop :=
  (∀ w : Word, decode w = .error .reservedOpcode ↔
      w.toNat / 2 ^ 24 ∉ [0x00, 0x01, 0x10, 0x11, 0x12, 0x13, 0x20, 0x21, 0x30, 0x31, 0x40])
    ∧ (∀ w : Word, decode w = .error .reservedBits ↔
        (w.toNat / 2 ^ 24 ∈ [0x00, 0x01, 0x20, 0x21, 0x30, 0x40] ∧ w.toNat % 2 ^ 24 ≠ 0)
          ∨ (w.toNat / 2 ^ 24 ∈ [0x10, 0x11] ∧ w.toNat / 2 ^ 18 % 64 ≠ 0)
          ∨ (w.toNat / 2 ^ 24 = 0x12 ∧ (w.toNat / 2 ^ 18 % 64 ≠ 0 ∨ w.toNat % 256 ≠ 0))
          ∨ (w.toNat / 2 ^ 24 = 0x31 ∧ w.toNat / 2 ^ 16 % 256 ≠ 0))
    ∧ (∀ w : Word, decode w = .error .fieldCodeThree ↔
        (w.toNat / 2 ^ 16 = 0x1003 ∨ w.toNat / 2 ^ 16 = 0x1103 ∨ (w.toNat / 2 ^ 16 = 0x1203 ∧ w.toNat % 256 = 0)))

/-- R110-R112: an assembler line, as text or read, that is not refused assembles to the word of a well-formed command; `gf.sub` is
`gf.add`, `gf.sq` is `gf.mul` with the operand twice, `axpy.xor` is `gf.axpy` with coefficient 1, and `enc.setdens.f` of d =
num/den in [0, 1] carries floor(d * 32768 + 0.5), which is a valid density code. -/
def Obligations.AssembledLinesAreCommands : Prop :=
  (∀ (l : AsmLine) (w : Word), assemble l = some w → ∃ i : Instr, i.wellFormed = true ∧ w = encode i)
    ∧ (∀ (text : List Char) (w : Word), assembleText text = some w → ∃ i : Instr, i.wellFormed = true ∧ w = encode i)
    ∧ (∀ f a b, assemble (.gfSub f a b) = assemble (.gfAdd f a b))
    ∧ (∀ f a, assemble (.gfSq f a) = assemble (.gfMul f a a))
    ∧ (∀ d s, assemble (.axpyXor d s) = assemble (.gfAxpy d 1 s))
    ∧ (∀ num den, 0 < den → num ≤ den →
        ∃ imm : BitVec 16, assemble (.encSetdensF num den) = some (encode (.encSetdens imm))
          ∧ imm.toNat ≤ 0x8000
          ∧ 2 * den * imm.toNat ≤ 65536 * num + den ∧ 65536 * num + den < 2 * den * (imm.toNat + 1))

/-! ### The step, reset, invariants -/

/-- R276, R291, R7, on the model's schedule: a step in the engine's turn is exec of the decoded pending command, with the turn
taken off the schedule (the schedule is the model's choice, log 4), and with an empty schedule a step is the engine's turn (the
model's choice, log 5). With nothing pending the engine's turn changes nothing. A word that the random source offers joins the end
of the queue of offers and changes nothing else (the queue is the model's choice, log 3). -/
def Obligations.StepRunsPendingCommand : Prop :=
  (∀ (w : Word) (rest : List Event) (s : State) (i : Instr), engineHas w rest s → decode w = .ok i →
      step s = exec i { s with inbox := rest })
    ∧ (∀ (w : Word) (s : State) (i : Instr), s.inbox = [] → s.rst = false → s.pending = some w → decode w = .ok i →
      step s = exec i s)
    ∧ (∀ (s : State) (rest : List Event), s.rst = false → s.pending = none →
      (s.inbox = .engine :: rest → step s = .next { s with inbox := rest }) ∧ (s.inbox = [] → step s = .next s))
    ∧ ∀ (s : State) (w : Word) (rest : List Event), s.inbox = .offer w :: rest →
      step s = .next { s with inbox := rest, draws := s.draws ++ [w] }

/-- R108, R272: a pending word that is no well-formed command's word completes with ILLEGAL and changes nothing but the completion
fields. -/
def Obligations.IllegalWordsCompleteWithIllegal : Prop :=
  ∀ (w : Word) (rest : List Event) (s : State), engineHas w rest s →
    (∀ i : Instr, i.wellFormed = true → encode i ≠ w) →
    step s = .next (complete .illegal { s with inbox := rest })

/-- R60, R300, R301: an edge with rst = 1 leaves every register at its reset value and no pending command, whatever ran before,
and the memories at the drawn contents; the state State.reset has the same registers. While rst = 1 a host transaction of any size
changes nothing and has no answer, and the engine's turn changes nothing; a falling rst changes nothing else. The model's choices
here: the schedule (log 4), that the random source's offers survive a reset (log 3), which drawn cells count (log 10), and what a
transaction does while rst = 1 (log 11). -/
def Obligations.ResetLeavesTheResetTable : Prop :=
  (∀ (s : State) (d : PowerOn) (rest : List Event), s.inbox = .rstRise d :: rest →
      ∃ t, step s = .next t ∧ t.params = s.params ∧ t.rst = true ∧ t.pending = none ∧ t.irq = false ∧ t.piv = 0
        ∧ (∀ i, t.cvec.read i = 0#8)
        ∧ (∀ r : Reg, r ≠ .id → r ≠ .param0 → r ≠ .param1 → regRead t r = 0#32)
        ∧ t.blk = Memory.ofCells (fun a => decide (a < blockBytes s.params)) d.blk
        ∧ t.pbuf = Memory.ofCells (fun a => decide (a < pbufBytes s.params)) d.pbuf
        ∧ t.rows = Memory.ofCells (rowsInside s.params) d.rows
        ∧ t.draws = s.draws ∧ t.inbox = rest)
    ∧ (∀ r : Reg, r ≠ .id → r ≠ .param0 → r ≠ .param1 → regRead State.reset r = 0#32)
    ∧ (State.reset.pending = none ∧ State.reset.irq = false ∧ ∀ i, State.reset.cvec.read i = 0#8)
    ∧ (∀ (s : State) (addr : BitVec 25) (size : BitVec 2) (v : Word) (rest : List Event), s.rst = true →
        (s.inbox = .read addr size :: rest ∨ s.inbox = .write addr size v :: rest →
            step s = .next { s with inbox := rest, resp := none })
          ∧ (s.inbox = .engine :: rest → step s = .next { s with inbox := rest })
          ∧ (s.inbox = [] → step s = .next s)
          ∧ (s.inbox = .rstFall :: rest → step s = .next { s with inbox := rest, rst := false }))

/-- R58, R60, R300, R301: the invariant of StepKeepsInv and the row form of StepKeepsRref hold at State.reset (the default build
with empty memories: the model's choices, log 1, log 2), and after a reset of any unit with legal parameters, from any state and
with any draws. -/
def Obligations.ResetSatisfiesInv : Prop :=
  (Inv State.reset ∧ Rref State.reset)
    ∧ ∀ (s : State) (d : PowerOn), paramsLegal s.params = true → Inv (resetTo d s) ∧ Rref (resetTo d s)

/-- Every step keeps the structural invariant: canonical memories inside their bounds, reserved bits 0, an active configuration
INIT accepts, R40, R41, R53, R55. -/
def Obligations.StepKeepsInv : Prop :=
  ∀ s t : State, Inv s → step s = .next t → Inv t

/-- R58, and the row form of R59 (which the spec derives from R226-R228): every step keeps the held rows in fully reduced
row-echelon form, and RANK the number of held rows. -/
def Obligations.StepKeepsRref : Prop :=
  ∀ s t : State, Inv s → Rref s → step s = .next t → Rref t

/-- R8: the build parameters never change. -/
def Obligations.ParamsNeverChange : Prop :=
  ∀ s t : State, step s = .next t → t.params = s.params

/-- R132: an instance begins and ends only in INIT, or ends in reset: if a step changes CONFIGURED or the active configuration, it
was a reset, or the engine's turn with INIT pending. -/
def Obligations.InstanceChangesOnlyByInitOrReset : Prop :=
  ∀ s t : State, step s = .next t →
    ¬(t.configured = s.configured ∧ t.acfg0 = s.acfg0 ∧ t.asymbols = s.asymbols ∧ t.asymsize = s.asymsize
      ∧ t.hsize = s.hsize ∧ t.psize = s.psize) →
    (∃ d rest, s.inbox = .rstRise d :: rest)
      ∨ (s.rst = false ∧ (s.inbox = [] ∨ ∃ rest, s.inbox = .engine :: rest) ∧ s.pending = some (encode .init))

/-! ### The life of a command -/

/-- R278, and R276 with the model's reading of a step that is not enabled (log 13): every command either waits for draws, which is
a next state with nothing changed, or completes: ERR is written, the ERRFLAGS bit of a nonzero code is set and no other changes,
DONE = 1, BUSY = 0, PENDING none. -/
def Obligations.CommandsCompleteOrWait : Prop :=
  ∀ (i : Instr) (s : State),
    (s.draws.length < drawsTaken s i ∧ exec i s = .next s) ∨
      ∃ t, exec i s = .next t ∧ t.done = true ∧ t.busy = false ∧ t.pending = none
        ∧ (t.err = .none → t.errflags = s.errflags)
        ∧ (t.err ≠ .none → t.errflags = s.errflags ||| (1#32 <<< t.err.code))

/-- The model's reading of R276 (log 13: a step that is not enabled is a next state with nothing changed): a command that passes
its checks and takes more draws than the random source has offered stays pending and changes nothing. -/
def Obligations.CommandsWaitForDraws : Prop :=
  ∀ (i : Instr) (s : State), instanceOk s i → s.draws.length < drawsTaken s i → exec i s = .next s

/-- R277: of a command that completes with an error only the completion fields commit; of a failed INIT also its teardown. -/
def Obligations.ErrorsCommitNothing : Prop :=
  ∀ (i : Instr) (s t : State), s.err = .none → exec i s = .next t → t.err ≠ .none →
    (i ≠ .init → t = complete t.err s) ∧ (i = .init → t = complete .config (unconfigure (teardown s)))

/-- R272, R273: without the instance or role it needs, a command fails with STATE; with it, but an operand out of range, with
ILLEGAL; and when both hold it fails with neither. -/
def Obligations.CommonChecksDecideTheError : Prop :=
  ∀ (i : Instr) (s : State),
    (¬ instanceOk s i → exec i s = .next (complete .state s))
      ∧ (instanceOk s i → ¬ operandsOk s i → exec i s = .next (complete .illegal s))
      ∧ (instanceOk s i → operandsOk s i → s.err = .none →
          ∃ t, exec i s = .next t ∧ t.err ≠ .state ∧ t.err ≠ .illegal)

/-- The table of R91 (which the spec derives from the commands' own rules): besides the completion fields and its draws, a command
writes only the parts of the state that the table of R91 gives it; the parameters, the ports and the host's registers are never
written by a command. -/
def Obligations.CommandsWriteOnlyTheirParts : Prop :=
  ∀ (i : Instr) (s t : State), exec i s = .next t →
    (∀ part : Part, part ∉ mayWrite i → sameIn s t part)
      ∧ t.params = s.params ∧ t.rst = s.rst ∧ t.inbox = s.inbox ∧ t.resp = s.resp ∧ t.ctrl = s.ctrl
      ∧ t.cfg0 = s.cfg0 ∧ t.cfgSymbols = s.cfgSymbols ∧ t.cfgSymsize = s.cfgSymsize
      ∧ t.cfgDensity = s.cfgDensity ∧ t.genSeed = s.genSeed

/-- R92 and R237 (which the spec derives from R91 and R220): PBUF bytes at or above PSIZE and BLK bytes at or above k*S survive
every command, CVEC entries at or above k every command but INIT, and ROWS entries outside the first k rows and columns every
command. -/
def Obligations.CommandsStayInTheirRanges : Prop :=
  ∀ (i : Instr) (s t : State), Inv s → exec i s = .next t →
    (∀ a, s.psize.toNat ≤ a → t.pbuf.read a = s.pbuf.read a)
      ∧ (∀ a, s.k * s.symSize ≤ a → t.blk.read a = s.blk.read a)
      ∧ (i ≠ .init → ∀ c, s.k ≤ c → t.cvec.read c = s.cvec.read c)
      ∧ (∀ off, s.k ≤ off / 256 ∨ s.k ≤ off % 256 → t.rows.read off = s.rows.read off)

/-- R230: a command leaves RANK and PIV, or is an innovative DEC.READ that raises RANK by 1 and sets one more PIV bit, or is INIT.
-/
def Obligations.RankRisesOnlyByInnovativeReads : Prop :=
  ∀ (i : Instr) (s t : State), Inv s → Rref s → exec i s = .next t →
    (t.rank = s.rank ∧ t.piv = s.piv)
      ∨ (i = .decRead ∧ t.lastRead = .innovative ∧ t.rank.toNat = s.rank.toNat + 1 ∧ t.rank.toNat ≤ s.k
          ∧ ∃ p, p < s.k ∧ pivHeld s.piv p = false ∧ ∀ r, pivHeld t.piv r = (pivHeld s.piv r || decide (r = p)))
      ∨ (i = .init ∧ t.rank = 0#32 ∧ t.piv = 0#256)

/-! ### NOP and INIT -/

/-- R130: NOP is the word 0; a word with opcode 0 and another bit set is illegal; NOP completes in every state and writes only the
completion fields; on a fresh unit every register but STATUS keeps its reset value and STATUS reads 2. -/
def Obligations.NopCompletes : Prop :=
  encode .nop = 0x00000000#32
    ∧ (∀ w : Word, w.toNat < 2 ^ 24 → w ≠ 0#32 → decode w = .error .reservedBits)
    ∧ (∀ s : State, exec .nop s = .next { s with err := .none, done := true, pending := none })
    ∧ (∀ t, step (State.reset.withFetchWord 32 0) = .next t →
        regRead t .status = 0x00000002#32 ∧ ∀ r : Reg, r ≠ .status → regRead t r = regRead State.reset r)

/-- R131, R134, R252, R253: INIT with a valid configuration builds a new instance from the configuration registers and ends the
old one; everything else but the completion fields stays. -/
def Obligations.InitBuildsInstance : Prop :=
  ∀ s : State, cfgField s.cfg0 ≠ 3#2 → cfgFormat s.cfg0 = 0#2 ∨ cfgFormat s.cfg0 = 1#2 →
    1 ≤ low16 s.cfgSymbols → low16 s.cfgSymbols ≤ s.params.kMax →
    1 ≤ low16 s.cfgSymsize → low16 s.cfgSymsize ≤ s.params.sMax → low16 s.cfgDensity ≤ 0x8000 →
    ∃ t, exec .init s = .next t
      ∧ t = { s with
          err := .none, done := true, pending := none,
          acfg0 := t.acfg0, asymbols := t.asymbols, asymsize := t.asymsize, hsize := t.hsize, psize := t.psize,
          density := t.density, configured := true, rank := 0, cursor := 0, seedLast := 0, piv := 0, cvec := t.cvec,
          coded := false, unit := false, lastRead := .none }
      ∧ cfgField t.acfg0 = cfgField s.cfg0 ∧ cfgFormat t.acfg0 = cfgFormat s.cfg0 ∧ cfgRole t.acfg0 = cfgRole s.cfg0
      ∧ t.acfg0 &&& ~~~0x133#32 = 0#32
      ∧ t.asymbols.toNat = low16 s.cfgSymbols ∧ t.asymsize.toNat = low16 s.cfgSymsize
      ∧ t.density.toNat = low16 s.cfgDensity
      ∧ (cfgFormat s.cfg0 = 1#2 → t.hsize.toNat = 8)
      ∧ (cfgFormat s.cfg0 = 0#2 → cfgField s.cfg0 = 0#2 → t.hsize.toNat = 2 + (low16 s.cfgSymbols + 7) / 8)
      ∧ (cfgFormat s.cfg0 = 0#2 → cfgField s.cfg0 = 1#2 → t.hsize.toNat = 2 + (low16 s.cfgSymbols + 1) / 2)
      ∧ (cfgFormat s.cfg0 = 0#2 → cfgField s.cfg0 = 2#2 → t.hsize.toNat = 2 + low16 s.cfgSymbols)
      ∧ t.psize.toNat = t.hsize.toNat + low16 s.cfgSymsize
      ∧ (∀ c, t.cvec.read c = 0#8)
      ∧ t.complete = false

/-- R131, R134, R135: INIT with an invalid configuration fails with CONFIG and leaves no instance; BLK, PBUF, ROWS and everything
else but the completion fields stays. -/
def Obligations.InitFailureLeavesNoInstance : Prop :=
  ∀ s : State,
    (cfgField s.cfg0 = 3#2 ∨ 1 < (cfgFormat s.cfg0).toNat ∨ low16 s.cfgSymbols = 0 ∨ s.params.kMax < low16 s.cfgSymbols
      ∨ low16 s.cfgSymsize = 0 ∨ s.params.sMax < low16 s.cfgSymsize ∨ 0x8000 < low16 s.cfgDensity) →
    exec .init s = .next
      { s with
        err := .config, errflags := s.errflags ||| 0x2#32, done := true, pending := none,
        acfg0 := 0, asymbols := 0, asymsize := 0, hsize := 0, psize := 0, density := 0, configured := false,
        rank := 0, cursor := 0, seedLast := 0, piv := 0, cvec := [], coded := false, unit := false,
        lastRead := .none }

/-! ### Field arithmetic -/

/-- R155: GF.ADD of two elements of its field completes with RESULT = A XOR B and writes nothing else but the completion fields.
-/
def Obligations.GfAddResult : Prop :=
  ∀ (fld : BitVec 2) (a b : Byte) (s : State), fld ≠ 3#2 →
    a.toNat < (Field.ofCode fld).size → b.toNat < (Field.ofCode fld).size →
    exec (.gfAdd fld a b) s =
      .next { s with err := .none, done := true, pending := none, result := (a ^^^ b).setWidth 32 }

/-- R151, R152, R156: GF.MUL of two elements completes with the product in its field: A AND B in GF(2); in GF(2^4) and GF(2^8) the
element of the field that the carry-less product of A and B leaves modulo the field's polynomial. Nothing else but the completion
fields is written. -/
def Obligations.GfMulIsProductModuloPolynomial : Prop :=
  ∀ (fld : BitVec 2) (a b : Byte) (s : State), paramsLegal s.params = true → fld ≠ 3#2 →
    a.toNat < (Field.ofCode fld).size → b.toNat < (Field.ofCode fld).size →
    ∃ t, exec (.gfMul fld a b) s = .next t
      ∧ t = { s with err := .none, done := true, pending := none, result := t.result }
      ∧ t.result.toNat < (Field.ofCode fld).size
      ∧ (fld = 0#2 → t.result = (a &&& b).setWidth 32)
      ∧ (fld = 1#2 → ∃ c, c < 8 ∧ t.result.toNat ^^^ clmul s.params.poly4.toNat c 3 = clmul a.toNat b.toNat 4)
      ∧ (fld = 2#2 → ∃ c, c < 128 ∧ t.result.toNat ^^^ clmul s.params.poly8.toNat c 7 = clmul a.toNat b.toNat 8)

/-- R153, R157: GF.INV of a nonzero element completes with the unique element whose product with A is 1, and writes nothing else
but the completion fields. -/
def Obligations.GfInvIsTheUniqueInverse : Prop :=
  ∀ (fld : BitVec 2) (a : Byte) (s : State), paramsLegal s.params = true → fld ≠ 3#2 →
    a.toNat < (Field.ofCode fld).size → a ≠ 0#8 →
    ∃ t, exec (.gfInv fld a) s = .next t
      ∧ t = { s with err := .none, done := true, pending := none, result := t.result }
      ∧ t.result.toNat < (Field.ofCode fld).size
      ∧ mulF s.params (Field.ofCode fld) a (t.result.setWidth 8) = 1#8
      ∧ ∀ b : Byte, b.toNat < (Field.ofCode fld).size → mulF s.params (Field.ofCode fld) a b = 1#8 →
          t.result = b.setWidth 32

/-- R157: GF.INV of 0 fails with DIV_ZERO; RESULT keeps its value. -/
def Obligations.GfInvOfZeroFails : Prop :=
  ∀ (fld : BitVec 2) (s : State), fld ≠ 3#2 →
    exec (.gfInv fld 0#8) s =
      .next { s with err := .divZero, errflags := s.errflags ||| 0x8#32, done := true, pending := none }

/-- R161 (whose laws the spec marks as general knowledge and whose two identities as derived), for the operations of R150-R154:
the laws of the field operations on elements, and the two identities of mulb. -/
def Obligations.FieldLaws : Prop :=
  ∀ (p : Params) (F : Field) (a b c x y : Byte), paramsLegal p = true →
    a.toNat < F.size → b.toNat < F.size → c.toNat < F.size →
    addF a b = addF b a ∧ mulF p F a b = mulF p F b a
      ∧ addF (addF a b) c = addF a (addF b c) ∧ mulF p F (mulF p F a b) c = mulF p F a (mulF p F b c)
      ∧ mulF p F a (addF b c) = addF (mulF p F a b) (mulF p F a c)
      ∧ addF a 0#8 = a ∧ mulF p F a 1#8 = a ∧ mulF p F a 0#8 = 0#8 ∧ addF a a = 0#8
      ∧ (addF a b).toNat < F.size ∧ (mulF p F a b).toNat < F.size
      ∧ mulb p F c (x ^^^ y) = mulb p F c x ^^^ mulb p F c y
      ∧ mulb p F (mulF p F b c) x = mulb p F b (mulb p F c x)

/-- R158: GF.AXPY with operands in range completes; byte t of sym(DST) becomes itself XOR COEFF times byte t of sym(SRC), DST =
SRC included; every other byte of BLK and everything else but the completion fields stays. -/
def Obligations.GfAxpyResult : Prop :=
  ∀ (coeff dst src : Byte) (s : State), s.configured = true →
    coeff.toNat < s.field.size → dst.toNat < s.k → src.toNat < s.k →
    ∃ t, exec (.gfAxpy coeff dst src) s = .next t
      ∧ t = { s with err := .none, done := true, pending := none, blk := t.blk }
      ∧ (∀ b, b < s.symSize →
          t.blk.read (dst.toNat * s.symSize + b) =
            s.blk.read (dst.toNat * s.symSize + b) ^^^
              mulb s.params s.field coeff (s.blk.read (src.toNat * s.symSize + b)))
      ∧ (∀ a, ¬(dst.toNat * s.symSize ≤ a ∧ a < dst.toNat * s.symSize + s.symSize) → t.blk.read a = s.blk.read a)

/-- R158: with DST = SRC, sym(DST) becomes (COEFF XOR 1) times itself; so COEFF = 1 zeroes it and COEFF = 0 leaves it. -/
def Obligations.GfAxpyOnItself : Prop :=
  ∀ (coeff dst : Byte) (s : State), Inv s → s.configured = true → coeff.toNat < s.field.size → dst.toNat < s.k →
    ∃ t, exec (.gfAxpy coeff dst dst) s = .next t
      ∧ (∀ b, b < s.symSize →
          t.blk.read (dst.toNat * s.symSize + b) =
            mulb s.params s.field (coeff ^^^ 1#8) (s.blk.read (dst.toNat * s.symSize + b)))
      ∧ (coeff = 1#8 → ∀ b, b < s.symSize → t.blk.read (dst.toNat * s.symSize + b) = 0#8)
      ∧ (coeff = 0#8 → ∀ a, t.blk.read a = s.blk.read a)

/-- R162 (which the spec derives from R158 and R161): two GF.AXPY commands commute when neither one's DST is the other's SRC. -/
def Obligations.GfAxpyCommutes : Prop :=
  ∀ (c₁ d₁ s₁ c₂ d₂ s₂ : Byte) (s : State), s.configured = true →
    c₁.toNat < s.field.size → d₁.toNat < s.k → s₁.toNat < s.k →
    c₂.toNat < s.field.size → d₂.toNat < s.k → s₂.toNat < s.k → d₁ ≠ s₂ → d₂ ≠ s₁ →
    ∃ t₁ t₂ u₁ u₂, exec (.gfAxpy c₁ d₁ s₁) s = .next t₁ ∧ exec (.gfAxpy c₂ d₂ s₂) t₁ = .next t₂
      ∧ exec (.gfAxpy c₂ d₂ s₂) s = .next u₁ ∧ exec (.gfAxpy c₁ d₁ s₁) u₁ = .next u₂
      ∧ ∀ a, t₂.blk.read a = u₂.blk.read a

/-! ### The coefficient generator -/

/-- R186: GEN.DENSE with k draws offered takes exactly k of them; entry i of CVEC is draw i modulo the field size; entries from k
on and everything else but the completion fields stay. -/
def Obligations.GenDenseResult : Prop :=
  ∀ s : State, s.configured = true → s.k ≤ s.draws.length →
    ∃ t, exec .genDense s = .next t
      ∧ t = { s with err := .none, done := true, pending := none, cvec := t.cvec, draws := s.draws.drop s.k }
      ∧ (∀ i, i < s.k → (t.cvec.read i).toNat = (s.draws.getD i 0#32).toNat % s.field.size)
      ∧ (∀ i, s.k ≤ i → t.cvec.read i = s.cvec.read i)

/-- R187: GEN.SPARSE writes expand(GEN_SEED, DENSITY, k, F) into CVEC[0..k-1], takes no draws and writes nothing else but the
completion fields. -/
def Obligations.GenSparseResult : Prop :=
  ∀ s : State, s.configured = true →
    ∃ t, exec .genSparse s = .next t
      ∧ t = { s with err := .none, done := true, pending := none, cvec := t.cvec }
      ∧ (∀ i, i < s.k → t.cvec.read i = (expand s.params s.genSeed s.dens s.k s.field).getD i 0#8)
      ∧ (∀ i, s.k ≤ i → t.cvec.read i = s.cvec.read i)

/-- R183, R184, R189: expand gives a vector of k elements of its field, never the zero vector. -/
def Obligations.ExpandGivesNonzeroVector : Prop :=
  ∀ (p : Params) (seed : Word) (d k : Nat) (F : Field), 1 ≤ k →
    (expand p seed d k F).length = k ∧ (∀ x ∈ expand p seed d k F, x.toNat < F.size)
      ∧ ∃ x ∈ expand p seed d k F, x ≠ 0#8

/-- R182, R183, R184: entry i of an attempt takes the LCG's iterates 2i+1 and 2i+2 from the attempt's seed, in their upper halves
u and w: it is 1 + w mod (q - 1) when u < 2*D, else 0. If the attempts with seeds seed .. seed+att-1 are all zero and the one with
seed+att is not, and att ≤ REROLL_MAX, expand is that attempt; if all REROLL_MAX + 1 attempts are all zero, it is the unit vector
at seed mod k. -/
def Obligations.ExpandRerollsBySeedIncrement : Prop :=
  (∀ (F : Field) (d n i : Nat) (s : Word), i < n →
      (sparseAttempt F d n s).length = n
        ∧ ((sparseAttempt F d n s).getD i 0#8).toNat =
          if (Nat.iterate (fun x : Word => x * 1664525#32 + 1013904223#32) (2 * i + 1) s).toNat / 2 ^ 16 < 2 * d then
            1 + (Nat.iterate (fun x : Word => x * 1664525#32 + 1013904223#32) (2 * i + 2) s).toNat / 2 ^ 16 % (F.size - 1)
          else 0)
    ∧ (∀ (p : Params) (seed : Word) (d k att : Nat) (F : Field), att ≤ p.rerollMax →
      (∀ j, j < att → ∀ x ∈ sparseAttempt F d k (seed + BitVec.ofNat 32 j), x = 0#8) →
      (∃ x ∈ sparseAttempt F d k (seed + BitVec.ofNat 32 att), x ≠ 0#8) →
      expand p seed d k F = sparseAttempt F d k (seed + BitVec.ofNat 32 att))
    ∧ (∀ (p : Params) (seed : Word) (d k : Nat) (F : Field),
      (∀ j, j ≤ p.rerollMax → ∀ x ∈ sparseAttempt F d k (seed + BitVec.ofNat 32 j), x = 0#8) →
      expand p seed d k F = unitVec k (seed.toNat % k))

/-- R184, R187: at density 0, GEN.SPARSE always gives the unit vector at GEN_SEED mod k. -/
def Obligations.ZeroDensityGivesUnitVector : Prop :=
  ∀ s : State, s.configured = true → s.density = 0#32 →
    ∃ t, exec .genSparse s = .next t
      ∧ ∀ i, i < s.k → t.cvec.read i = if i = s.genSeed.toNat % s.k then 1#8 else 0#8

/-! ### The encoder -/

/-- R200, R201, R256: ENC.WRITE in the state Systematic emits symbol CURSOR: the systematic header, the symbol unchanged, CVEC the
unit vector, PLEN = PSIZE; the cursor advances, and CODED is set with the last symbol. No draw is taken; nothing else but the
completion fields is written. -/
def Obligations.EncWriteSystematicEmitsSymbol : Prop :=
  ∀ s : State, Inv s → s.configured = true → s.isDecoder = false → s.coded = false →
    ∃ t, exec .encWrite s = .next t
      ∧ t = { s with
          err := .none, done := true, pending := none, cvec := t.cvec, pbuf := t.pbuf, plen := s.psize,
          cursor := s.cursor + 1#32, coded := decide (s.cursor.toNat + 1 = s.k) }
      ∧ (∀ i, i < s.k → t.cvec.read i = if i = s.cursor.toNat then 1#8 else 0#8)
      ∧ (∀ i, s.k ≤ i → t.cvec.read i = s.cvec.read i)
      ∧ t.pbuf.read 0 = 0x00#8 ∧ t.pbuf.read 1 = (cfgField s.acfg0).setWidth 8
      ∧ (t.pbuf.read 2).toNat = s.cursor.toNat
      ∧ (∀ a, 3 ≤ a → a < s.hdr → t.pbuf.read a = 0#8)
      ∧ (∀ b, b < s.symSize → t.pbuf.read (s.hdr + b) = s.blk.read (s.cursor.toNat * s.symSize + b))
      ∧ (∀ a, s.psize.toNat ≤ a → t.pbuf.read a = s.pbuf.read a)

/-- R200, R202, R254, R262: ENC.WRITE in the state Coded, dense format, with k draws offered takes k of them; the vector is draw i
modulo the field size; the header packs it least significant first with a zero pad; the body is the sum of the symbols times the
vector. -/
def Obligations.EncWriteDenseEmitsCombination : Prop :=
  ∀ s : State, Inv s → s.configured = true → s.isDecoder = false → s.coded = true → s.format = 0#2 →
    s.k ≤ s.draws.length →
    ∃ t, exec .encWrite s = .next t
      ∧ t = { s with
          err := .none, done := true, pending := none, cvec := t.cvec, pbuf := t.pbuf, plen := s.psize,
          draws := s.draws.drop s.k }
      ∧ (∀ i, i < s.k → (t.cvec.read i).toNat = (s.draws.getD i 0#32).toNat % s.field.size)
      ∧ (∀ i, s.k ≤ i → t.cvec.read i = s.cvec.read i)
      ∧ t.pbuf.read 0 = 0x01#8 ∧ t.pbuf.read 1 = (cfgField s.acfg0).setWidth 8
      ∧ (∀ i, 2 + i / perByte s.field < s.hdr →
          (t.pbuf.read (2 + i / perByte s.field)).toNat / 2 ^ (s.field.bits * (i % perByte s.field)) % s.field.size =
            if i < s.k then (t.cvec.read i).toNat else 0)
      ∧ (∀ b, b < s.symSize →
          t.pbuf.read (s.hdr + b) =
            xorSum s.k (fun i => mulb s.params s.field (t.cvec.read i) (s.blk.read (i * s.symSize + b))))
      ∧ (∀ a, s.psize.toNat ≤ a → t.pbuf.read a = s.pbuf.read a)

/-- R200, R202, R203, R251: ENC.WRITE in the state Coded, sparse-seeded format, takes one draw as the seed, records it in
SEED_LAST and, with the density, big-endian in the header; the vector is expand of them; the body is the sum of the symbols times
the vector. -/
def Obligations.EncWriteSparseEmitsCombination : Prop :=
  ∀ (s : State) (seed : Word) (rest : List Word), Inv s → s.configured = true → s.isDecoder = false → s.coded = true →
    s.format = 1#2 → s.draws = seed :: rest →
    ∃ t, exec .encWrite s = .next t
      ∧ t = { s with
          err := .none, done := true, pending := none, cvec := t.cvec, pbuf := t.pbuf, plen := s.psize,
          draws := rest, seedLast := seed }
      ∧ (∀ i, i < s.k → t.cvec.read i = (expand s.params seed s.dens s.k s.field).getD i 0#8)
      ∧ (∀ i, s.k ≤ i → t.cvec.read i = s.cvec.read i)
      ∧ t.pbuf.read 0 = 0x02#8 ∧ t.pbuf.read 1 = (cfgField s.acfg0).setWidth 8
      ∧ t.pbuf.read 2 = seed.extractLsb' 24 8 ∧ t.pbuf.read 3 = seed.extractLsb' 16 8
      ∧ t.pbuf.read 4 = seed.extractLsb' 8 8 ∧ t.pbuf.read 5 = seed.extractLsb' 0 8
      ∧ t.pbuf.read 6 = s.density.extractLsb' 8 8 ∧ t.pbuf.read 7 = s.density.extractLsb' 0 8
      ∧ (∀ b, b < s.symSize →
          t.pbuf.read (s.hdr + b) =
            xorSum s.k (fun i => mulb s.params s.field (t.cvec.read i) (s.blk.read (i * s.symSize + b))))
      ∧ (∀ a, s.psize.toNat ≤ a → t.pbuf.read a = s.pbuf.read a)

/-- R200, R202, R259, with R188 and R208 (which the spec derives): whatever payload ENC.WRITE frames, a unit of the same
configuration parses its header back to the very vector in CVEC, and its body is the combination of the encoder's block with that
vector; PLEN is PSIZE. -/
def Obligations.EncodedPayloadParsesBackAndIsTrue : Prop :=
  ∀ s : State, Inv s → s.configured = true → s.isDecoder = false → drawsTaken s .encWrite ≤ s.draws.length →
    ∃ t v, exec .encWrite s = .next t ∧ t.parsed = some v ∧ isVector s v
      ∧ (∀ i, i < s.k → t.cvec.read i = v.getD i 0#8) ∧ payloadTrueOf s.blk v t ∧ t.plen = t.psize

/-- R205: ENC.SETDENS on an encoder sets DENSITY to a valid code and writes nothing else but the completion fields; an invalid
code fails with CONFIG and leaves the instance and its density. -/
def Obligations.EncSetdensResult : Prop :=
  ∀ (imm : BitVec 16) (s : State), s.configured = true → s.isDecoder = false →
    (imm.toNat ≤ 0x8000 →
        exec (.encSetdens imm) s =
          .next { s with err := .none, done := true, pending := none, density := imm.setWidth 32 })
      ∧ (0x8000 < imm.toNat →
        exec (.encSetdens imm) s =
          .next { s with err := .config, errflags := s.errflags ||| 0x2#32, done := true, pending := none })

/-! ### The decoder -/

/-- R232: a complete decoder ignores a read: no check, no error, and only LAST_READ = 3, UNIT = 0 and the completion fields
change. -/
def Obligations.CompleteDecoderIgnoresReads : Prop :=
  ∀ s : State, s.configured = true → s.isDecoder = true → s.rank = s.asymbols →
    exec .decRead s =
      .next { s with err := .none, done := true, pending := none, lastRead := .ignored, unit := false }

/-- R221, R223, R233: a decoder that is not complete rejects exactly the malformed payloads, with FRAMING, and then only the
completion fields change. -/
def Obligations.MalformedPayloadsFailWithFraming : Prop :=
  ∀ s : State, Inv s → s.configured = true → s.isDecoder = true → s.rank ≠ s.asymbols →
    (malformed s →
        exec .decRead s =
          .next { s with err := .framing, errflags := s.errflags ||| 0x4#32, done := true, pending := none })
      ∧ (¬ malformed s → ∃ t v, s.parsed = some v ∧ exec .decRead s = .next t ∧ t.err = .none)

/-- R220, R229, with the column claims of R226 (which the spec derives from R59): a payload whose vector the held rows reduce to
zero is absorbed without error: CVEC, the scratch row, LAST_READ = 2 and UNIT = 0 and the completion fields change, and nothing
else. -/
def Obligations.DependentPayloadIsAbsorbed : Prop :=
  ∀ (s : State) (v : List Byte), Inv s → Rref s → s.configured = true → s.isDecoder = true → s.rank ≠ s.asymbols →
    s.plen = s.psize → s.parsed = some v → (∀ c, c < s.k → residueVec s v c = 0#8) →
    ∃ t, exec .decRead s = .next t
      ∧ t = { s with
          err := .none, done := true, pending := none, cvec := t.cvec, scrV := t.scrV, scrD := t.scrD,
          lastRead := .dependent, unit := false }
      ∧ (∀ i, i < s.k → t.cvec.read i = v.getD i 0#8)
      ∧ (∀ i, s.k ≤ i → t.cvec.read i = s.cvec.read i)

/-- R220, R227, R231, with the column claims of R226 and R228 and R237 (which the spec derives): a payload whose reduced vector
has its first nonzero entry at p becomes the normalized pivot row p, the held rows lose column p, their symbol data alike; no
other byte of BLK and no other entry of ROWS changes. -/
def Obligations.InnovativePayloadBecomesPivotRow : Prop :=
  ∀ (s : State) (v : List Byte) (p : Nat), Inv s → Rref s → s.configured = true → s.isDecoder = true →
    s.rank ≠ s.asymbols → s.plen = s.psize → s.parsed = some v →
    p < s.k → (∀ c, c < p → residueVec s v c = 0#8) → residueVec s v p ≠ 0#8 →
    ∃ t, exec .decRead s = .next t
      ∧ t = { s with
          err := .none, done := true, pending := none, cvec := t.cvec, scrV := t.scrV, scrD := t.scrD,
          rows := t.rows, blk := t.blk, piv := t.piv, rank := s.rank + 1#32, lastRead := .innovative,
          unit := t.unit }
      ∧ pivHeld s.piv p = false ∧ (∀ r, pivHeld t.piv r = (pivHeld s.piv r || decide (r = p)))
      ∧ (∀ i, i < s.k → t.cvec.read i = v.getD i 0#8)
      ∧ (∀ c, c < s.k →
          entry t p c = mulF s.params s.field (invF s.params s.field (residueVec s v p)) (residueVec s v c))
      ∧ (∀ b, b < s.symSize →
          t.blk.read (symAt s.symSize p + b) =
            mulb s.params s.field (invF s.params s.field (residueVec s v p)) (residueData s v b))
      ∧ (∀ r c, held s r → c < s.k →
          entry t r c = entry s r c ^^^ mulF s.params s.field (entry s r p) (entry t p c))
      ∧ (∀ r b, held s r → b < s.symSize →
          t.blk.read (symAt s.symSize r + b) =
            s.blk.read (symAt s.symSize r + b) ^^^
              mulb s.params s.field (entry s r p) (t.blk.read (symAt s.symSize p + b)))
      ∧ (∀ a, (∀ r, held t r → ¬(symAt s.symSize r ≤ a ∧ a < symAt s.symSize r + s.symSize)) →
          t.blk.read a = s.blk.read a)
      ∧ (∀ off, (∀ r, held t r → ¬(rowAt r ≤ off ∧ off < rowAt r + s.k)) → t.rows.read off = s.rows.read off)
      ∧ (t.unit = true ↔ ∀ c, c < s.k → c ≠ p → entry t p c = 0#8)

/-- R235 and R236 (which the spec derives from R226-R229 and R59): reading a payload that is true of a block keeps the held rows
true of it, and when the decoder is then complete its block memory is that block. So does every step that is no host write to the
BLK window, no GF.AXPY, and no DEC.READ of a payload that is not true of the block. -/
def Obligations.DecodingKeepsTheBlockTrue : Prop :=
  (∀ (s : State) (v : List Byte) (block : Memory), Inv s → Rref s → s.configured = true → s.isDecoder = true →
      s.plen = s.psize → s.parsed = some v → trueOf block s → payloadTrueOf block v s →
      ∃ t, exec .decRead s = .next t ∧ trueOf block t
        ∧ (t.complete = true → ∀ a, a < s.k * s.symSize → t.blk.read a = block.read a))
    ∧ ∀ (s t : State) (block : Memory), Inv s → Rref s → trueOf block s → step s = .next t →
      (∀ addr size data rest, s.inbox = .write addr size data :: rest → addr.toNat < 0x1000000) →
      (∀ coeff dst src, s.pending ≠ some (encode (.gfAxpy coeff dst src))) →
      (s.pending = some (encode .decRead) → ∀ v, s.parsed = some v → payloadTrueOf block v s) →
      trueOf block t

/-- R236 (which the spec derives from R235 and R59): when COMPLETE = 1, every row is held and is its unit vector. -/
def Obligations.CompleteDecoderHasIdentityRows : Prop :=
  ∀ s : State, Inv s → Rref s → s.complete = true →
    ∀ r c, r < s.k → c < s.k → pivHeld s.piv r = true ∧ entry s r c = if r = c then 1#8 else 0#8

/-! ### The host port -/

/-- The model's form of R72 and R73: a scheduled transaction of 1, 2 or 4 bytes is one step (the schedule is the model's choice,
log 4) that keeps its answer in `resp` (the model's choice, log 7); a read changes nothing else. -/
def Obligations.HostTransactionsAnswer : Prop :=
  (∀ (s : State) (addr : BitVec 25) (size : BitVec 2) (n : Nat) (rest : List Event),
      s.inbox = .read addr size :: rest → s.rst = false → sizeBytes size = some n →
      step s = .next { s with inbox := rest, resp := some (hostRead s addr.toNat n) })
    ∧ (∀ (s : State) (addr : BitVec 25) (size : BitVec 2) (data : Word) (n : Nat) (rest : List Event),
      s.inbox = .write addr size data :: rest → s.rst = false → sizeBytes size = some n →
      step s = .next { (hostWrite { s with inbox := rest } addr.toNat n data).1 with
        resp := some (hostWrite { s with inbox := rest } addr.toNat n data).2 })
    ∧ sizeBytes 0#2 = some 1 ∧ sizeBytes 1#2 = some 2 ∧ sizeBytes 2#2 = some 4

/-- D27 of 92_eei_decisions, R280: a transaction of a wrong width (size code 3) is a bus error with no effect; that it is one
scheduled step (log 4) with its answer kept in `resp` (log 7) is the model's choice. R310, in the model's form of a run (turns,
actions and outcome are the model's choice, log 18): a bus error does not end a run of a host program: each of its actions but
WAIT is finished by its answer, whatever it is, and WAIT when BUSY = 0; and the run has an outcome exactly when its last action
has finished and BUSY = 0. -/
def Obligations.WrongSizesAreBusErrorsAndRunsGoOn : Prop :=
  (∀ (s : State) (addr : BitVec 25) (data : Word) (rest : List Event), s.rst = false →
      s.inbox = .read addr 3#2 :: rest ∨ s.inbox = .write addr 3#2 data :: rest →
      ∃ a, step s = .next { s with inbox := rest, resp := some a } ∧ a.error = true
        ∧ (s.inbox = .read addr 3#2 :: rest → a.rdata = 0#32))
    ∧ (∀ (r : HostRun) (l : HostLine) (ls : List HostLine) (e : Event), r.unit.rst = false → r.rest = l :: ls →
      l ≠ .wait → l.transaction = some e → ∃ u, r.turn .host = some u ∧ u.rest = ls)
    ∧ (∀ (r : HostRun) (ls : List HostLine), r.unit.rst = false → r.rest = .wait :: ls →
      ∃ u, r.turn .host = some u ∧ u.rest = if r.unit.busy then .wait :: ls else ls)
    ∧ (∀ r : HostRun, (∃ o, r.outcome = some o) ↔ (r.rest = [] ∧ r.unit.pending = none))

/-- R71, R73, R77, and R81 (which the spec derives from R77): an aligned, unlocked write in the PBUF or the BLK window is answered
OK; it writes those of its bytes that lie in the memory, little-endian, and ignores the others, which read 0; no other byte of any
window changes; and where all of it lies in the memory it reads back whole. -/
def Obligations.WindowsReadBackWrites : Prop :=
  ∀ (s : State) (addr n : Nat) (v : Word), s.pending = none → n = 1 ∨ n = 2 ∨ n = 4 → addr % n = 0 →
    (0x20000 ≤ addr ∧ addr < 0x40000) ∨ (0x1000000 ≤ addr ∧ addr < 0x2000000) →
    (hostWrite s addr n v).2.error = false
      ∧ (hostWrite s addr n v).1 = { s with pbuf := (hostWrite s addr n v).1.pbuf, blk := (hostWrite s addr n v).1.blk }
      ∧ (∀ j, j < n →
          viewByte (hostWrite s addr n v).1 (addr + j) =
            if (addr + j < 0x40000 ∧ addr + j < 0x20000 + pbufBytes s.params)
                ∨ (0x1000000 ≤ addr + j ∧ addr + j < 0x1000000 + blockBytes s.params)
            then v.extractLsb' (8 * j) 8 else 0#8)
      ∧ (∀ a, a < addr ∨ addr + n ≤ a → viewByte (hostWrite s addr n v).1 a = viewByte s a)
      ∧ ((addr < 0x40000 ∧ 0x20000 + pbufBytes s.params ≤ addr) ∨ 0x1000000 + blockBytes s.params ≤ addr →
          (hostWrite s addr n v).1 = s)
      ∧ ((addr < 0x40000 ∧ addr + n ≤ 0x20000 + pbufBytes s.params)
            ∨ (0x1000000 ≤ addr ∧ addr + n ≤ 0x1000000 + blockBytes s.params) →
          hostRead (hostWrite s addr n v).1 addr n =
            { rdata := BitVec.ofNat 32 (v.toNat % 2 ^ (8 * n)), error := false })

/-- R279, R78: while BUSY, a CMD write is a bus error that sets ERRFLAGS bit 6 and changes nothing else; every other host write
but a register write to CTRL, STATUS or ERRFLAGS is a bus error with no effect at all. That a write at 0x011 .. 0x013 is not a CMD
write and sets no flag is the model's reading (log 15). -/
def Obligations.HostWritesWhileBusy : Prop :=
  ∀ (s : State) (w : Word), s.pending = some w →
    (∀ v, (hostWrite s 0x10 4 v).1 = { s with errflags := s.errflags ||| 0x40#32 }
        ∧ (hostWrite s 0x10 4 v).2.error = true)
      ∧ (∀ addr n v, addr ≠ 0x0C → addr ≠ 0x10 → addr ≠ 0x14 → addr ≠ 0x18 →
          (hostWrite s addr n v).1 = s ∧ (hostWrite s addr n v).2.error = true)

/-- R78: while BUSY, window reads are bus errors and register reads go through, with BUSY = 1 in STATUS. -/
def Obligations.HostReadsWhileBusy : Prop :=
  ∀ (s : State) (w : Word), s.pending = some w →
    (∀ addr n, 0x1000 ≤ addr → hostRead s addr n = { rdata := 0, error := true })
      ∧ (∀ off, off < 0x1000 → off % 4 = 0 → hostRead s off 4 = { rdata := regRead s (regAt off), error := false })
      ∧ (regRead s .status).getLsbD 0 = true

/-- R275: a 4-byte write to CMD while BUSY = 0 accepts the word, whatever it is: PENDING, BUSY = 1, DONE = 0, ERR = 0, an OK
response; irq falls. -/
def Obligations.CommandAcceptance : Prop :=
  ∀ (s : State) (w : Word), s.pending = none →
    (hostWrite s 0x10 4 w).1 = { s with pending := some w, done := false, err := .none }
      ∧ (hostWrite s 0x10 4 w).2.error = false
      ∧ (hostWrite s 0x10 4 w).1.busy = true ∧ (hostWrite s 0x10 4 w).1.irq = false

/-- R284: irq is DONE AND CTRL.IE; a completion raises it when IE = 1; a CTRL write makes it follow DONE and the written bit;
writing 1 to DONE drops it; reset leaves it 0. -/
def Obligations.IrqFollowsDoneAndEnable : Prop :=
  (∀ s : State, s.irq = (s.done && (regRead s .ctrl).getLsbD 0))
    ∧ (∀ (i : Instr) (s t : State), s.pending ≠ none → exec i s = .next t → t.pending = none →
        t.irq = s.ctrl.getLsbD 0)
    ∧ (∀ (s : State) (v : Word), (hostWrite s 0x0C 4 v).1.irq = (s.done && v.getLsbD 0))
    ∧ (∀ (s : State) (v : Word), v.getLsbD 1 = true → (hostWrite s 0x14 4 v).1.irq = false)
    ∧ State.reset.irq = false ∧ ∀ (d : PowerOn) (s : State), (resetTo d s).irq = false

/-- R23, R27, R30, R32-R37, R83: an unlocked write of an RW register changes only that register, to the named bits of the written
word, and is answered OK, CTRL also while BUSY; a write to ERRFLAGS clears exactly the bits written 1, and a write to STATUS
clears DONE when bit 1 is 1, both also while BUSY; every aligned 4-byte read of the register page is answered with what its
register reads, so the written register reads back its named bits. -/
def Obligations.RegistersReadBackWrites : Prop :=
  (∀ (s : State) (v : Word), s.pending = none →
      (hostWrite s 0x20 4 v).1 = { s with cfg0 := v &&& 0x133#32 }
        ∧ (hostWrite s 0x24 4 v).1 = { s with cfgSymbols := v &&& 0xFFFF#32 }
        ∧ (hostWrite s 0x28 4 v).1 = { s with cfgSymsize := v &&& 0xFFFF#32 }
        ∧ (hostWrite s 0x2C 4 v).1 = { s with cfgDensity := v &&& 0xFFFF#32 }
        ∧ (hostWrite s 0x30 4 v).1 = { s with genSeed := v }
        ∧ (hostWrite s 0x34 4 v).1 = { s with plen := v }
        ∧ ∀ off mask, (off, mask) ∈ [(0x0C, 0x1#32), (0x20, 0x133#32), (0x24, 0xFFFF#32), (0x28, 0xFFFF#32),
              (0x2C, 0xFFFF#32), (0x30, 0xFFFFFFFF#32), (0x34, 0xFFFFFFFF#32)] →
            (hostWrite s off 4 v).2.error = false
              ∧ hostRead (hostWrite s off 4 v).1 off 4 = { rdata := v &&& mask, error := false })
    ∧ (∀ (s : State) (v : Word),
      (hostWrite s 0x0C 4 v).1 = { s with ctrl := v &&& 0x1#32 } ∧ (hostWrite s 0x0C 4 v).2.error = false
        ∧ (hostWrite s 0x18 4 v).1 = { s with errflags := s.errflags &&& ~~~v }
        ∧ (hostWrite s 0x18 4 v).2.error = false
        ∧ (hostWrite s 0x14 4 v).1 = { s with done := s.done && !v.getLsbD 1 }
        ∧ (hostWrite s 0x14 4 v).2.error = false)
    ∧ ∀ (s : State) (off : Nat), off < 0x1000 → off % 4 = 0 →
      hostRead s off 4 = { rdata := regRead s (regAt off), error := false }

/-- R22, R23: an unlocked write to a read-only register or a reserved offset of the register page is ignored with an OK response.
-/
def Obligations.ReadOnlyRegistersIgnoreWrites : Prop :=
  ∀ (s : State) (off : Nat) (v : Word), s.pending = none → off < 0x1000 → off % 4 = 0 →
    off ∉ [0x0C, 0x10, 0x14, 0x18, 0x20, 0x24, 0x28, 0x2C, 0x30, 0x34] →
    (hostWrite s off 4 v).1 = s ∧ (hostWrite s off 4 v).2.error = false

/-- R79: writes to the read-only CVEC and ROWS windows are ignored with an OK response, when not locked. -/
def Obligations.ReadOnlyWindowsIgnoreWrites : Prop :=
  ∀ (s : State) (addr n : Nat) (v : Word), s.pending = none → n = 1 ∨ n = 2 ∨ n = 4 → addr % n = 0 →
    (0x1000 ≤ addr ∧ addr < 0x1100) ∨ (0x10000 ≤ addr ∧ addr < 0x20000) →
    (hostWrite s addr n v).1 = s ∧ (hostWrite s addr n v).2.error = false

/-- R71, R74, R76, R280: an access to the register page that is not an aligned 4-byte access, an access to an unmapped address,
and a misaligned window access are bus errors with no effect, and the read data is 0. That such an access at CMD's offset sets no
flag while BUSY is the model's reading (log 15). -/
def Obligations.RefusedAccessesAreBusErrors : Prop :=
  ∀ (s : State) (addr n : Nat) (v : Word),
    (addr < 0x1000 ∧ ¬(n = 4 ∧ addr % 4 = 0))
        ∨ (0x1100 ≤ addr ∧ addr < 0x10000) ∨ (0x40000 ≤ addr ∧ addr < 0x1000000)
        ∨ (0x1000 ≤ addr ∧ addr % n ≠ 0) →
      hostRead s addr n = { rdata := 0, error := true }
        ∧ (hostWrite s addr n v).1 = s ∧ (hostWrite s addr n v).2.error = true

/-- R49, R70, R71, R72, R77: an aligned, unlocked window read of n bytes is answered with the n bytes in ascending lanes and zeros
above; a byte of the ROWS window at row p, column c is the stored entry when p and c are below K_MAX, row p is held and c < k,
else 0; a byte of the CVEC, PBUF and BLK windows is the memory's, and 0 beyond the memory. -/
def Obligations.WindowReadsShowTheMemories : Prop :=
  (∀ (s : State) (addr n : Nat), s.pending = none → n = 1 ∨ n = 2 ∨ n = 4 → addr % n = 0 →
      (0x1000 ≤ addr ∧ addr < 0x1100) ∨ (0x10000 ≤ addr ∧ addr < 0x40000) ∨ (0x1000000 ≤ addr ∧ addr < 0x2000000) →
      ∃ r : Word, hostRead s addr n = { rdata := r, error := false } ∧ r.toNat < 2 ^ (8 * n)
        ∧ ∀ j, j < n → r.extractLsb' (8 * j) 8 = viewByte s (addr + j))
    ∧ (∀ (s : State) (p c : Nat), p < 256 → c < 256 →
      viewByte s (0x10000 + 256 * p + c) =
        if p < s.params.kMax ∧ c < s.params.kMax ∧ pivHeld s.piv p = true ∧ c < s.k then entry s p c else 0#8)
    ∧ (∀ (s : State) (i : Nat), i < 256 → viewByte s (0x1000 + i) = if i < s.params.kMax then s.cvec.read i else 0#8)
    ∧ (∀ (s : State) (a : Nat), a < 0x20000 →
      viewByte s (0x20000 + a) = if a < pbufBytes s.params then s.pbuf.read a else 0#8)
    ∧ ∀ (s : State) (a : Nat), a < 0x1000000 →
      viewByte s (0x1000000 + a) = if a < blockBytes s.params then s.blk.read a else 0#8

/-- R22, R24-R26, R28-R45: the identification registers read the constant and the build parameters in their fields, and PARAM1
reads 0xFF13011D with the defaults; STATUS reads each of its bits and fields in its place and 0 in the others; bit b of PIVn is
PIV[32n + b]; every other register reads its field at its offset; CMD and the reserved offsets read 0. -/
def Obligations.RegisterFieldsReadInTheirPlaces : Prop :=
  (∀ s : State, paramsLegal s.params = true →
      regRead s (regAt 0x000) = 0x4B524331#32
        ∧ ((regRead s (regAt 0x004)).extractLsb' 0 16).toNat = s.params.kMax
        ∧ ((regRead s (regAt 0x004)).extractLsb' 16 16).toNat = s.params.sMax
        ∧ (regRead s (regAt 0x008)).extractLsb' 0 9 = s.params.poly8
        ∧ (regRead s (regAt 0x008)).extractLsb' 9 7 = 0#7
        ∧ (regRead s (regAt 0x008)).extractLsb' 16 5 = s.params.poly4
        ∧ (regRead s (regAt 0x008)).extractLsb' 21 3 = 0#3
        ∧ ((regRead s (regAt 0x008)).extractLsb' 24 8).toNat = s.params.rerollMax)
    ∧ regRead State.reset (regAt 0x008) = 0xFF13011D#32
    ∧ (∀ s : State,
      (regRead s (regAt 0x014)).getLsbD 0 = s.pending.isSome
        ∧ (regRead s (regAt 0x014)).getLsbD 1 = s.done
        ∧ (regRead s (regAt 0x014)).getLsbD 2 = s.configured
        ∧ (regRead s (regAt 0x014)).getLsbD 3 = s.acfg0.getLsbD 8
        ∧ (regRead s (regAt 0x014)).getLsbD 4 = s.coded
        ∧ (regRead s (regAt 0x014)).getLsbD 5 = (s.configured && s.acfg0.getLsbD 8 && decide (s.rank = s.asymbols))
        ∧ (regRead s (regAt 0x014)).getLsbD 6 = s.unit
        ∧ (regRead s (regAt 0x014)).getLsbD 7 = false
        ∧ (regRead s (regAt 0x014)).extractLsb' 8 2 =
          (match s.lastRead with | .none => 0#2 | .innovative => 1#2 | .dependent => 2#2 | .ignored => 3#2)
        ∧ (regRead s (regAt 0x014)).extractLsb' 10 2 = 0#2
        ∧ (regRead s (regAt 0x014)).extractLsb' 12 4 =
          (match s.err with
            | .none => 0#4 | .config => 1#4 | .framing => 2#4 | .divZero => 3#4 | .illegal => 4#4 | .state => 5#4)
        ∧ (regRead s (regAt 0x014)).extractLsb' 16 16 = 0#16)
    ∧ (∀ (s : State) (n b : Nat), n < 8 → b < 32 →
      (regRead s (regAt (0x80 + 4 * n))).getLsbD b = s.piv.getLsbD (32 * n + b))
    ∧ (∀ s : State,
      regRead s (regAt 0x00C) = s.ctrl ∧ regRead s (regAt 0x010) = 0#32 ∧ regRead s (regAt 0x018) = s.errflags
        ∧ regRead s (regAt 0x01C) = s.result ∧ regRead s (regAt 0x020) = s.cfg0
        ∧ regRead s (regAt 0x024) = s.cfgSymbols ∧ regRead s (regAt 0x028) = s.cfgSymsize
        ∧ regRead s (regAt 0x02C) = s.cfgDensity ∧ regRead s (regAt 0x030) = s.genSeed
        ∧ regRead s (regAt 0x034) = s.plen ∧ regRead s (regAt 0x038) = s.psize ∧ regRead s (regAt 0x03C) = s.hsize
        ∧ regRead s (regAt 0x040) = s.rank ∧ regRead s (regAt 0x044) = s.cursor
        ∧ regRead s (regAt 0x048) = s.density ∧ regRead s (regAt 0x04C) = s.seedLast
        ∧ regRead s (regAt 0x050) = s.acfg0 ∧ regRead s (regAt 0x054) = s.asymbols
        ∧ regRead s (regAt 0x058) = s.asymsize)
    ∧ ∀ (s : State) (off : Nat), off % 4 = 0 → (0x05C ≤ off ∧ off < 0x080) ∨ (0x0A0 ≤ off ∧ off < 0x1000) →
      regRead s (regAt off) = 0#32
end

