-- ==== Sys2Proof/Laws/HostRun.lean ====
section
/-! SUPPORT. What a turn of a run of a host program can do. -/

namespace Sys2Proof.Machine

open Sys2Proof

theorem nextState_some {r : Result} {t : State} : nextState r = some t ↔ r = .next t := by
  cases r with
  | next u => simp [nextState]
  | fault e => simp [nextState]
  | refused e => simp [nextState]

/-- Everything the host's turn can do: the transaction of the next action, and the run as its answer leaves it. -/
theorem hostTurn_cases {r u : HostRun} (h : r.hostTurn = some u) :
    ∃ l ls e t, r.rest = l :: ls ∧ l.transaction = some e ∧ stepWith e r.unit = .next t ∧ u = r.answered l ls t := by
  unfold HostRun.hostTurn at h
  split at h
  · cases h
  · next l ls hl =>
    simp only [Option.map_eq_some_iff, Option.bind_eq_some_iff, nextState_some] at h
    obtain ⟨t, ⟨e, he, ht⟩, hu⟩ := h
    exact ⟨l, ls, e, t, hl, he, ht, hu.symm⟩

/-- After the host's turn the unit is in the state its transaction left. -/
@[simp] theorem answered_unit (r : HostRun) (l : HostLine) (ls : List HostLine) (t : State) :
    (r.answered l ls t).unit = t := by
  unfold HostRun.answered
  split
  · rfl
  · split <;> rfl

/-- An action is finished by its answer, a bus error included, unless it is a WAIT that read BUSY = 1. -/
theorem answered_rest {r : HostRun} {l : HostLine} {ls : List HostLine} {t : State} {a : HostResp} (h : t.resp = some a)
    (ho : l.over a.rdata = true) : (r.answered l ls t).rest = ls := by
  simp [HostRun.answered, h, ho]

/-- A run has an outcome exactly when it is over. -/
theorem outcome_isSome (r : HostRun) : r.outcome.isSome = r.isOver := by
  unfold HostRun.outcome
  cases r.isOver <;> rfl

end Sys2Proof.Machine
end

