-- ==== Sys2Proof/Laws/Memory.lean ====
section
/-! SUPPORT. What the memory operations do: a read after a write, a read of a run, and the canonical form, which every operation
keeps. -/

namespace Sys2Proof.Machine

open Sys2Proof

@[simp] theorem Memory.read_nil (x : Nat) : Memory.read [] x = Memory.unlisted := rfl

theorem Memory.read_cons (a : Nat) (b : Byte) (m : Memory) (x : Nat) :
    Memory.read ((a, b) :: m) x = if a = x then b else Memory.read m x := rfl

theorem Memory.read_erase_same (m : Memory) (x : Nat) : (m.erase x).read x = Memory.unlisted := by
  induction m with
  | nil => rfl
  | cons c m ih =>
    obtain ⟨a, b⟩ := c
    by_cases h : a = x
    · simpa [Memory.erase, h] using ih
    · simpa [Memory.erase, h, Memory.read_cons] using ih

theorem Memory.read_erase_other (m : Memory) {x y : Nat} (h : y ≠ x) : (m.erase x).read y = m.read y := by
  induction m with
  | nil => rfl
  | cons c m ih =>
    obtain ⟨a, b⟩ := c
    by_cases hx : a = x
    · have : a ≠ y := fun e => h (e ▸ hx)
      simpa [Memory.erase, hx, Memory.read_cons, h.symm] using ih
    · have he : Memory.erase ((a, b) :: m) x = (a, b) :: Memory.erase m x := by simp [Memory.erase, hx]
      rw [he, Memory.read_cons, Memory.read_cons, ih]

theorem Memory.read_insert_other (m : Memory) {x y : Nat} (v : Byte) (h : y ≠ x) :
    (m.insert x v).read y = m.read y := by
  induction m with
  | nil => simp [Memory.insert, Memory.read_cons, h.symm]
  | cons c m ih =>
    obtain ⟨a, b⟩ := c
    simp only [Memory.insert]
    split
    · simp [Memory.read_cons, h.symm]
    · simp [Memory.read_cons, ih]

theorem Memory.read_insert_same (m : Memory) (x : Nat) (v : Byte) (h : ∀ c ∈ m, c.1 ≠ x) :
    (m.insert x v).read x = v := by
  induction m with
  | nil => simp [Memory.insert, Memory.read_cons]
  | cons c m ih =>
    obtain ⟨a, b⟩ := c
    simp only [Memory.insert]
    split
    · simp [Memory.read_cons]
    · have ha : a ≠ x := h (a, b) (by simp)
      simp [Memory.read_cons, ha, ih (fun c hc => h c (by simp [hc]))]

theorem Memory.mem_erase {m : Memory} {x : Nat} {c : Host.Cell} (h : c ∈ m.erase x) : c.1 ≠ x ∧ c ∈ m := by
  simp only [Memory.erase, List.mem_filter, bne_iff_ne] at h
  exact ⟨h.2, h.1⟩

/-- A read after a write to the same offset gives the value written. -/
@[simp] theorem Memory.read_write_same (m : Memory) (x : Nat) (v : Byte) : (m.write x v).read x = v := by
  simp only [Memory.write]
  split
  · next h => rw [h, Memory.read_erase_same]
  · exact Memory.read_insert_same _ _ _ (fun c hc => (Memory.mem_erase hc).1)

/-- A write leaves every other offset alone. -/
theorem Memory.read_write_other (m : Memory) {x y : Nat} (v : Byte) (h : y ≠ x) : (m.write x v).read y = m.read y := by
  simp only [Memory.write]
  split
  · exact Memory.read_erase_other m h
  · rw [Memory.read_insert_other _ _ h, Memory.read_erase_other m h]

theorem Memory.read_write (m : Memory) (x y : Nat) (v : Byte) :
    (m.write x v).read y = if y = x then v else m.read y := by
  split
  · next h => rw [h, Memory.read_write_same]
  · next h => exact Memory.read_write_other m v h

@[simp] theorem Memory.length_readRun (m : Memory) (x n : Nat) : (m.readRun x n).length = n := by
  simp [Memory.readRun]

theorem Memory.getD_readRun (m : Memory) (x n j : Nat) (h : j < n) (d : Byte) :
    (m.readRun x n).getD j d = m.read (x + j) := by
  simp [Memory.readRun, List.getD, h]

/-- Reading after a run was written: the run's byte inside it, the old byte elsewhere. -/
theorem Memory.read_writeRun (m : Memory) (x : Nat) (bs : List Byte) (y : Nat) :
    (m.writeRun x bs).read y = if x ≤ y ∧ y < x + bs.length then bs.getD (y - x) 0#8 else m.read y := by
  induction bs generalizing m x with
  | nil => rw [if_neg (by simp)]; rfl
  | cons b bs ih =>
    rw [Memory.writeRun, ih, Memory.read_write]
    by_cases hy : y = x
    · subst hy
      simp
    · by_cases h1 : x + 1 ≤ y ∧ y < x + 1 + bs.length
      · have h2 : x ≤ y ∧ y < x + (b :: bs).length := by simp; omega
        have h3 : y - x = (y - (x + 1)) + 1 := by omega
        rw [if_pos h1, if_pos h2, h3]
        simp
      · have h2 : ¬(x ≤ y ∧ y < x + (b :: bs).length) := by simp at h1 ⊢; omega
        rw [if_neg h1, if_neg h2, if_neg hy]

/-- A run reads back as written. -/
theorem Memory.readRun_writeRun_same (m : Memory) (x : Nat) (bs : List Byte) :
    (m.writeRun x bs).readRun x bs.length = bs := by
  apply List.ext_getElem
  · simp
  · intro j h1 h2
    simp [Memory.readRun, Memory.read_writeRun, h2, List.getD]

theorem Memory.wfFrom_mono {m : Memory} {lo lo' : Nat} (h : lo' ≤ lo) (hw : Memory.wfFrom lo m = true) :
    Memory.wfFrom lo' m = true := by
  cases m with
  | nil => rfl
  | cons c m =>
    obtain ⟨a, b⟩ := c
    simp only [Memory.wfFrom, Bool.and_eq_true, decide_eq_true_eq] at hw ⊢
    exact ⟨⟨by omega, hw.1.2⟩, hw.2⟩

theorem Memory.wfFrom_erase {m : Memory} {lo : Nat} (x : Nat) (hw : Memory.wfFrom lo m = true) :
    Memory.wfFrom lo (m.erase x) = true := by
  induction m generalizing lo with
  | nil => rfl
  | cons c m ih =>
    obtain ⟨a, b⟩ := c
    simp only [Memory.wfFrom, Bool.and_eq_true, decide_eq_true_eq] at hw
    by_cases hx : a = x
    · have : Memory.erase ((a, b) :: m) x = Memory.erase m x := by simp [Memory.erase, hx]
      rw [this]
      exact Memory.wfFrom_mono (by omega) (ih hw.2)
    · have : Memory.erase ((a, b) :: m) x = (a, b) :: Memory.erase m x := by simp [Memory.erase, hx]
      rw [this]
      simp only [Memory.wfFrom, Bool.and_eq_true, decide_eq_true_eq]
      exact ⟨hw.1, ih hw.2⟩

theorem Memory.wfFrom_insert {m : Memory} {lo x : Nat} {v : Byte} (hlo : lo ≤ x) (hv : v ≠ Memory.unlisted)
    (hx : ∀ c ∈ m, c.1 ≠ x) (hw : Memory.wfFrom lo m = true) : Memory.wfFrom lo (m.insert x v) = true := by
  induction m generalizing lo with
  | nil => simp [Memory.insert, Memory.wfFrom, hlo, hv]
  | cons c m ih =>
    obtain ⟨a, b⟩ := c
    simp only [Memory.wfFrom, Bool.and_eq_true, decide_eq_true_eq] at hw
    have ha : a ≠ x := hx (a, b) (by simp)
    simp only [Memory.insert]
    split
    · next h =>
      simp only [Memory.wfFrom, Bool.and_eq_true, decide_eq_true_eq, bne_iff_ne]
      exact ⟨⟨hlo, hv⟩, ⟨by omega, by simpa using hw.1.2⟩, hw.2⟩
    · next h =>
      simp only [Memory.wfFrom, Bool.and_eq_true, decide_eq_true_eq]
      exact ⟨hw.1, ih (by omega) (fun c hc => hx c (by simp [hc])) hw.2⟩

/-- Every write keeps the canonical form. -/
theorem Memory.wf_write {m : Memory} (hw : m.wf = true) (x : Nat) (v : Byte) : (m.write x v).wf = true := by
  simp only [Memory.wf, Memory.write] at *
  split
  · exact Memory.wfFrom_erase x hw
  · next h =>
    exact Memory.wfFrom_insert (Nat.zero_le x) h (fun c hc => (Memory.mem_erase hc).1) (Memory.wfFrom_erase x hw)

/-- Every run of writes keeps the canonical form. -/
theorem Memory.wf_writeRun {m : Memory} (hw : m.wf = true) (x : Nat) (bs : List Byte) : (m.writeRun x bs).wf = true := by
  induction bs generalizing m x with
  | nil => exact hw
  | cons b bs ih => exact ih (Memory.wf_write hw x b) (x + 1)

/-- Contents drawn at reset are canonical. -/
theorem Memory.wf_ofCells (inside : Nat → Bool) (cells : List Host.Cell) : (Memory.ofCells inside cells).wf = true := by
  have : ∀ (m : Memory), m.wf = true →
      (cells.foldl (fun m c => if inside c.1 then m.write c.1 c.2 else m) m).wf = true := by
    induction cells with
    | nil => exact fun m hm => hm
    | cons c cells ih =>
      intro m hm
      rw [List.foldl_cons]
      apply ih
      split
      · exact Memory.wf_write hm _ _
      · exact hm
  exact this [] rfl

theorem Memory.mem_insert {m : Memory} {x : Nat} {v : Byte} {c : Host.Cell} (h : c ∈ m.insert x v) :
    c = (x, v) ∨ c ∈ m := by
  induction m with
  | nil => simpa [Memory.insert] using h
  | cons d m ih =>
    obtain ⟨a, b⟩ := d
    simp only [Memory.insert] at h
    split at h
    · simpa using h
    · rcases List.mem_cons.1 h with h | h
      · exact .inr (by simp [h])
      · rcases ih h with h | h
        · exact .inl h
        · exact .inr (by simp [h])

/-- A write inside a memory keeps its listed offsets inside. -/
theorem Memory.within_write {m : Memory} {inside : Nat → Bool} (hm : m.within inside = true) {x : Nat}
    (hx : inside x = true) (v : Byte) : (m.write x v).within inside = true := by
  simp only [Memory.within, List.all_eq_true, Memory.write] at *
  intro c hc
  split at hc
  · exact hm c (Memory.mem_erase hc).2
  · rcases Memory.mem_insert hc with h | h
    · rw [h]; exact hx
    · exact hm c (Memory.mem_erase h).2

/-- A run of writes inside a memory keeps its listed offsets inside. -/
theorem Memory.within_writeRun {m : Memory} {inside : Nat → Bool} (hm : m.within inside = true) (x : Nat)
    (bs : List Byte) (hx : ∀ j < bs.length, inside (x + j) = true) : (m.writeRun x bs).within inside = true := by
  induction bs generalizing m x with
  | nil => exact hm
  | cons b bs ih =>
    refine ih (Memory.within_write hm (hx 0 (by simp)) b) (x + 1) (fun j hj => ?_)
    have := hx (j + 1) (by simp; omega)
    rwa [show x + 1 + j = x + (j + 1) by omega]

theorem Memory.within_ofCells (inside : Nat → Bool) (cells : List Host.Cell) :
    (Memory.ofCells inside cells).within inside = true := by
  have : ∀ (m : Memory), m.within inside = true →
      (cells.foldl (fun m c => if inside c.1 then m.write c.1 c.2 else m) m).within inside = true := by
    induction cells with
    | nil => exact fun m hm => hm
    | cons c cells ih =>
      intro m hm
      rw [List.foldl_cons]
      apply ih
      split
      · next h => exact Memory.within_write hm h _
      · exact hm
  exact this [] rfl

/-- An offset that is not inside reads as unlisted. -/
theorem Memory.read_outside {m : Memory} {inside : Nat → Bool} (hm : m.within inside = true) {x : Nat}
    (hx : inside x = false) : m.read x = Memory.unlisted := by
  induction m with
  | nil => rfl
  | cons c m ih =>
    obtain ⟨a, b⟩ := c
    simp only [Memory.within, List.all_cons, Bool.and_eq_true] at hm
    have ha : a ≠ x := fun e => by rw [e] at hm; simp [hx] at hm
    rw [Memory.read_cons, if_neg ha]
    exact ih hm.2

theorem Memory.read_below {m : Memory} {lo x : Nat} (hw : Memory.wfFrom lo m = true) (hx : x < lo) :
    m.read x = Memory.unlisted := by
  induction m generalizing lo with
  | nil => rfl
  | cons c m ih =>
    obtain ⟨a, b⟩ := c
    simp only [Memory.wfFrom, Bool.and_eq_true, decide_eq_true_eq] at hw
    rw [Memory.read_cons, if_neg (by omega)]
    exact ih hw.2 (by omega)

/-- Canonical memories that read alike are equal. -/
theorem Memory.ext_of_wf {m m' : Memory} (hw : m.wf = true) (hw' : m'.wf = true) (h : ∀ x, m.read x = m'.read x) :
    m = m' := by
  have key : ∀ (m m' : Memory) (lo : Nat), Memory.wfFrom lo m = true → Memory.wfFrom lo m' = true →
      (∀ x, m.read x = m'.read x) → m = m' := by
    intro m
    induction m with
    | nil =>
      intro m' lo _ hw' h
      cases m' with
      | nil => rfl
      | cons c m' =>
        obtain ⟨a, b⟩ := c
        have := h a
        simp only [Memory.wfFrom, Bool.and_eq_true, decide_eq_true_eq, bne_iff_ne] at hw'
        simp [Memory.read_cons] at this
        exact absurd this.symm hw'.1.2
    | cons c m ih =>
      obtain ⟨a, b⟩ := c
      intro m' lo hw hw' h
      cases m' with
      | nil =>
        have := h a
        simp only [Memory.wfFrom, Bool.and_eq_true, decide_eq_true_eq, bne_iff_ne] at hw
        simp [Memory.read_cons] at this
        exact absurd this hw.1.2
      | cons c' m' =>
        obtain ⟨a', b'⟩ := c'
        have hw2 := hw
        have hw2' := hw'
        simp only [Memory.wfFrom, Bool.and_eq_true, decide_eq_true_eq, bne_iff_ne] at hw hw'
        have haa : a = a' := by
          rcases Nat.lt_trichotomy a a' with hlt | heq | hgt
          · have h1 := h a
            rw [Memory.read_cons, if_pos rfl, Memory.read_cons, if_neg (by omega),
              Memory.read_below hw'.2 (by omega)] at h1
            exact absurd h1 hw.1.2
          · exact heq
          · have h1 := h a'
            rw [Memory.read_cons, if_neg (by omega), Memory.read_below hw.2 (by omega), Memory.read_cons,
              if_pos rfl] at h1
            exact absurd h1.symm hw'.1.2
        subst haa
        have hbb : b = b' := by simpa [Memory.read_cons] using h a
        subst hbb
        have : m = m' := ih m' (a + 1) hw.2 hw'.2 (fun x => by
          by_cases hx : x < a + 1
          · rw [Memory.read_below hw.2 hx, Memory.read_below hw'.2 hx]
          · have := h x
            rwa [Memory.read_cons, if_neg (by omega), Memory.read_cons, if_neg (by omega)] at this)
        rw [this]
  exact key m m' 0 hw hw' h

end Sys2Proof.Machine
end

