-- ==== Sys2Proof/Laws/State.lean ====
section
/-! SUPPORT. The fields of the states that the record updates make, one lemma per field per update. -/

namespace Sys2Proof.Machine

open Sys2Proof

/-! ### accept -/

@[simp] theorem accept_params (w : Word) (s : State) : (accept w s).params = s.params := rfl
@[simp] theorem accept_rst (w : Word) (s : State) : (accept w s).rst = s.rst := rfl
@[simp] theorem accept_inbox (w : Word) (s : State) : (accept w s).inbox = s.inbox := rfl
@[simp] theorem accept_draws (w : Word) (s : State) : (accept w s).draws = s.draws := rfl
@[simp] theorem accept_resp (w : Word) (s : State) : (accept w s).resp = s.resp := rfl
@[simp] theorem accept_pending (w : Word) (s : State) : (accept w s).pending = some w := rfl
@[simp] theorem accept_ctrl (w : Word) (s : State) : (accept w s).ctrl = s.ctrl := rfl
@[simp] theorem accept_done (w : Word) (s : State) : (accept w s).done = false := rfl
@[simp] theorem accept_configured (w : Word) (s : State) : (accept w s).configured = s.configured := rfl
@[simp] theorem accept_coded (w : Word) (s : State) : (accept w s).coded = s.coded := rfl
@[simp] theorem accept_unit (w : Word) (s : State) : (accept w s).unit = s.unit := rfl
@[simp] theorem accept_lastRead (w : Word) (s : State) : (accept w s).lastRead = s.lastRead := rfl
@[simp] theorem accept_err (w : Word) (s : State) : (accept w s).err = .none := rfl
@[simp] theorem accept_errflags (w : Word) (s : State) : (accept w s).errflags = s.errflags := rfl
@[simp] theorem accept_result (w : Word) (s : State) : (accept w s).result = s.result := rfl
@[simp] theorem accept_cfg0 (w : Word) (s : State) : (accept w s).cfg0 = s.cfg0 := rfl
@[simp] theorem accept_cfgSymbols (w : Word) (s : State) : (accept w s).cfgSymbols = s.cfgSymbols := rfl
@[simp] theorem accept_cfgSymsize (w : Word) (s : State) : (accept w s).cfgSymsize = s.cfgSymsize := rfl
@[simp] theorem accept_cfgDensity (w : Word) (s : State) : (accept w s).cfgDensity = s.cfgDensity := rfl
@[simp] theorem accept_genSeed (w : Word) (s : State) : (accept w s).genSeed = s.genSeed := rfl
@[simp] theorem accept_plen (w : Word) (s : State) : (accept w s).plen = s.plen := rfl
@[simp] theorem accept_psize (w : Word) (s : State) : (accept w s).psize = s.psize := rfl
@[simp] theorem accept_hsize (w : Word) (s : State) : (accept w s).hsize = s.hsize := rfl
@[simp] theorem accept_rank (w : Word) (s : State) : (accept w s).rank = s.rank := rfl
@[simp] theorem accept_cursor (w : Word) (s : State) : (accept w s).cursor = s.cursor := rfl
@[simp] theorem accept_density (w : Word) (s : State) : (accept w s).density = s.density := rfl
@[simp] theorem accept_seedLast (w : Word) (s : State) : (accept w s).seedLast = s.seedLast := rfl
@[simp] theorem accept_acfg0 (w : Word) (s : State) : (accept w s).acfg0 = s.acfg0 := rfl
@[simp] theorem accept_asymbols (w : Word) (s : State) : (accept w s).asymbols = s.asymbols := rfl
@[simp] theorem accept_asymsize (w : Word) (s : State) : (accept w s).asymsize = s.asymsize := rfl
@[simp] theorem accept_piv (w : Word) (s : State) : (accept w s).piv = s.piv := rfl
@[simp] theorem accept_cvec (w : Word) (s : State) : (accept w s).cvec = s.cvec := rfl
@[simp] theorem accept_rows (w : Word) (s : State) : (accept w s).rows = s.rows := rfl
@[simp] theorem accept_pbuf (w : Word) (s : State) : (accept w s).pbuf = s.pbuf := rfl
@[simp] theorem accept_blk (w : Word) (s : State) : (accept w s).blk = s.blk := rfl
@[simp] theorem accept_scrV (w : Word) (s : State) : (accept w s).scrV = s.scrV := rfl
@[simp] theorem accept_scrD (w : Word) (s : State) : (accept w s).scrD = s.scrD := rfl

/-! ### complete -/

@[simp] theorem complete_params (e : ErrCode) (s : State) : (complete e s).params = s.params := rfl
@[simp] theorem complete_rst (e : ErrCode) (s : State) : (complete e s).rst = s.rst := rfl
@[simp] theorem complete_inbox (e : ErrCode) (s : State) : (complete e s).inbox = s.inbox := rfl
@[simp] theorem complete_draws (e : ErrCode) (s : State) : (complete e s).draws = s.draws := rfl
@[simp] theorem complete_resp (e : ErrCode) (s : State) : (complete e s).resp = s.resp := rfl
@[simp] theorem complete_pending (e : ErrCode) (s : State) : (complete e s).pending = none := rfl
@[simp] theorem complete_ctrl (e : ErrCode) (s : State) : (complete e s).ctrl = s.ctrl := rfl
@[simp] theorem complete_done (e : ErrCode) (s : State) : (complete e s).done = true := rfl
@[simp] theorem complete_configured (e : ErrCode) (s : State) : (complete e s).configured = s.configured := rfl
@[simp] theorem complete_coded (e : ErrCode) (s : State) : (complete e s).coded = s.coded := rfl
@[simp] theorem complete_unit (e : ErrCode) (s : State) : (complete e s).unit = s.unit := rfl
@[simp] theorem complete_lastRead (e : ErrCode) (s : State) : (complete e s).lastRead = s.lastRead := rfl
@[simp] theorem complete_err (e : ErrCode) (s : State) : (complete e s).err = e := rfl
@[simp] theorem complete_errflags (e : ErrCode) (s : State) : (complete e s).errflags = flagsAfter s.errflags e := rfl
@[simp] theorem complete_result (e : ErrCode) (s : State) : (complete e s).result = s.result := rfl
@[simp] theorem complete_cfg0 (e : ErrCode) (s : State) : (complete e s).cfg0 = s.cfg0 := rfl
@[simp] theorem complete_cfgSymbols (e : ErrCode) (s : State) : (complete e s).cfgSymbols = s.cfgSymbols := rfl
@[simp] theorem complete_cfgSymsize (e : ErrCode) (s : State) : (complete e s).cfgSymsize = s.cfgSymsize := rfl
@[simp] theorem complete_cfgDensity (e : ErrCode) (s : State) : (complete e s).cfgDensity = s.cfgDensity := rfl
@[simp] theorem complete_genSeed (e : ErrCode) (s : State) : (complete e s).genSeed = s.genSeed := rfl
@[simp] theorem complete_plen (e : ErrCode) (s : State) : (complete e s).plen = s.plen := rfl
@[simp] theorem complete_psize (e : ErrCode) (s : State) : (complete e s).psize = s.psize := rfl
@[simp] theorem complete_hsize (e : ErrCode) (s : State) : (complete e s).hsize = s.hsize := rfl
@[simp] theorem complete_rank (e : ErrCode) (s : State) : (complete e s).rank = s.rank := rfl
@[simp] theorem complete_cursor (e : ErrCode) (s : State) : (complete e s).cursor = s.cursor := rfl
@[simp] theorem complete_density (e : ErrCode) (s : State) : (complete e s).density = s.density := rfl
@[simp] theorem complete_seedLast (e : ErrCode) (s : State) : (complete e s).seedLast = s.seedLast := rfl
@[simp] theorem complete_acfg0 (e : ErrCode) (s : State) : (complete e s).acfg0 = s.acfg0 := rfl
@[simp] theorem complete_asymbols (e : ErrCode) (s : State) : (complete e s).asymbols = s.asymbols := rfl
@[simp] theorem complete_asymsize (e : ErrCode) (s : State) : (complete e s).asymsize = s.asymsize := rfl
@[simp] theorem complete_piv (e : ErrCode) (s : State) : (complete e s).piv = s.piv := rfl
@[simp] theorem complete_cvec (e : ErrCode) (s : State) : (complete e s).cvec = s.cvec := rfl
@[simp] theorem complete_rows (e : ErrCode) (s : State) : (complete e s).rows = s.rows := rfl
@[simp] theorem complete_pbuf (e : ErrCode) (s : State) : (complete e s).pbuf = s.pbuf := rfl
@[simp] theorem complete_blk (e : ErrCode) (s : State) : (complete e s).blk = s.blk := rfl
@[simp] theorem complete_scrV (e : ErrCode) (s : State) : (complete e s).scrV = s.scrV := rfl
@[simp] theorem complete_scrD (e : ErrCode) (s : State) : (complete e s).scrD = s.scrD := rfl

/-! ### writeCvec -/

@[simp] theorem writeCvec_params (v : List Byte) (s : State) : (writeCvec v s).params = s.params := rfl
@[simp] theorem writeCvec_rst (v : List Byte) (s : State) : (writeCvec v s).rst = s.rst := rfl
@[simp] theorem writeCvec_inbox (v : List Byte) (s : State) : (writeCvec v s).inbox = s.inbox := rfl
@[simp] theorem writeCvec_draws (v : List Byte) (s : State) : (writeCvec v s).draws = s.draws := rfl
@[simp] theorem writeCvec_resp (v : List Byte) (s : State) : (writeCvec v s).resp = s.resp := rfl
@[simp] theorem writeCvec_pending (v : List Byte) (s : State) : (writeCvec v s).pending = s.pending := rfl
@[simp] theorem writeCvec_ctrl (v : List Byte) (s : State) : (writeCvec v s).ctrl = s.ctrl := rfl
@[simp] theorem writeCvec_done (v : List Byte) (s : State) : (writeCvec v s).done = s.done := rfl
@[simp] theorem writeCvec_configured (v : List Byte) (s : State) : (writeCvec v s).configured = s.configured := rfl
@[simp] theorem writeCvec_coded (v : List Byte) (s : State) : (writeCvec v s).coded = s.coded := rfl
@[simp] theorem writeCvec_unit (v : List Byte) (s : State) : (writeCvec v s).unit = s.unit := rfl
@[simp] theorem writeCvec_lastRead (v : List Byte) (s : State) : (writeCvec v s).lastRead = s.lastRead := rfl
@[simp] theorem writeCvec_err (v : List Byte) (s : State) : (writeCvec v s).err = s.err := rfl
@[simp] theorem writeCvec_errflags (v : List Byte) (s : State) : (writeCvec v s).errflags = s.errflags := rfl
@[simp] theorem writeCvec_result (v : List Byte) (s : State) : (writeCvec v s).result = s.result := rfl
@[simp] theorem writeCvec_cfg0 (v : List Byte) (s : State) : (writeCvec v s).cfg0 = s.cfg0 := rfl
@[simp] theorem writeCvec_cfgSymbols (v : List Byte) (s : State) : (writeCvec v s).cfgSymbols = s.cfgSymbols := rfl
@[simp] theorem writeCvec_cfgSymsize (v : List Byte) (s : State) : (writeCvec v s).cfgSymsize = s.cfgSymsize := rfl
@[simp] theorem writeCvec_cfgDensity (v : List Byte) (s : State) : (writeCvec v s).cfgDensity = s.cfgDensity := rfl
@[simp] theorem writeCvec_genSeed (v : List Byte) (s : State) : (writeCvec v s).genSeed = s.genSeed := rfl
@[simp] theorem writeCvec_plen (v : List Byte) (s : State) : (writeCvec v s).plen = s.plen := rfl
@[simp] theorem writeCvec_psize (v : List Byte) (s : State) : (writeCvec v s).psize = s.psize := rfl
@[simp] theorem writeCvec_hsize (v : List Byte) (s : State) : (writeCvec v s).hsize = s.hsize := rfl
@[simp] theorem writeCvec_rank (v : List Byte) (s : State) : (writeCvec v s).rank = s.rank := rfl
@[simp] theorem writeCvec_cursor (v : List Byte) (s : State) : (writeCvec v s).cursor = s.cursor := rfl
@[simp] theorem writeCvec_density (v : List Byte) (s : State) : (writeCvec v s).density = s.density := rfl
@[simp] theorem writeCvec_seedLast (v : List Byte) (s : State) : (writeCvec v s).seedLast = s.seedLast := rfl
@[simp] theorem writeCvec_acfg0 (v : List Byte) (s : State) : (writeCvec v s).acfg0 = s.acfg0 := rfl
@[simp] theorem writeCvec_asymbols (v : List Byte) (s : State) : (writeCvec v s).asymbols = s.asymbols := rfl
@[simp] theorem writeCvec_asymsize (v : List Byte) (s : State) : (writeCvec v s).asymsize = s.asymsize := rfl
@[simp] theorem writeCvec_piv (v : List Byte) (s : State) : (writeCvec v s).piv = s.piv := rfl
@[simp] theorem writeCvec_cvec (v : List Byte) (s : State) : (writeCvec v s).cvec = s.cvec.writeRun 0 v := rfl
@[simp] theorem writeCvec_rows (v : List Byte) (s : State) : (writeCvec v s).rows = s.rows := rfl
@[simp] theorem writeCvec_pbuf (v : List Byte) (s : State) : (writeCvec v s).pbuf = s.pbuf := rfl
@[simp] theorem writeCvec_blk (v : List Byte) (s : State) : (writeCvec v s).blk = s.blk := rfl
@[simp] theorem writeCvec_scrV (v : List Byte) (s : State) : (writeCvec v s).scrV = s.scrV := rfl
@[simp] theorem writeCvec_scrD (v : List Byte) (s : State) : (writeCvec v s).scrD = s.scrD := rfl

/-! ### teardown -/

@[simp] theorem teardown_params (s : State) : (teardown s).params = s.params := rfl
@[simp] theorem teardown_rst (s : State) : (teardown s).rst = s.rst := rfl
@[simp] theorem teardown_inbox (s : State) : (teardown s).inbox = s.inbox := rfl
@[simp] theorem teardown_draws (s : State) : (teardown s).draws = s.draws := rfl
@[simp] theorem teardown_resp (s : State) : (teardown s).resp = s.resp := rfl
@[simp] theorem teardown_pending (s : State) : (teardown s).pending = s.pending := rfl
@[simp] theorem teardown_ctrl (s : State) : (teardown s).ctrl = s.ctrl := rfl
@[simp] theorem teardown_done (s : State) : (teardown s).done = s.done := rfl
@[simp] theorem teardown_configured (s : State) : (teardown s).configured = s.configured := rfl
@[simp] theorem teardown_coded (s : State) : (teardown s).coded = false := rfl
@[simp] theorem teardown_unit (s : State) : (teardown s).unit = false := rfl
@[simp] theorem teardown_lastRead (s : State) : (teardown s).lastRead = .none := rfl
@[simp] theorem teardown_err (s : State) : (teardown s).err = s.err := rfl
@[simp] theorem teardown_errflags (s : State) : (teardown s).errflags = s.errflags := rfl
@[simp] theorem teardown_result (s : State) : (teardown s).result = s.result := rfl
@[simp] theorem teardown_cfg0 (s : State) : (teardown s).cfg0 = s.cfg0 := rfl
@[simp] theorem teardown_cfgSymbols (s : State) : (teardown s).cfgSymbols = s.cfgSymbols := rfl
@[simp] theorem teardown_cfgSymsize (s : State) : (teardown s).cfgSymsize = s.cfgSymsize := rfl
@[simp] theorem teardown_cfgDensity (s : State) : (teardown s).cfgDensity = s.cfgDensity := rfl
@[simp] theorem teardown_genSeed (s : State) : (teardown s).genSeed = s.genSeed := rfl
@[simp] theorem teardown_plen (s : State) : (teardown s).plen = s.plen := rfl
@[simp] theorem teardown_psize (s : State) : (teardown s).psize = s.psize := rfl
@[simp] theorem teardown_hsize (s : State) : (teardown s).hsize = s.hsize := rfl
@[simp] theorem teardown_rank (s : State) : (teardown s).rank = 0 := rfl
@[simp] theorem teardown_cursor (s : State) : (teardown s).cursor = 0 := rfl
@[simp] theorem teardown_density (s : State) : (teardown s).density = s.density := rfl
@[simp] theorem teardown_seedLast (s : State) : (teardown s).seedLast = 0 := rfl
@[simp] theorem teardown_acfg0 (s : State) : (teardown s).acfg0 = s.acfg0 := rfl
@[simp] theorem teardown_asymbols (s : State) : (teardown s).asymbols = s.asymbols := rfl
@[simp] theorem teardown_asymsize (s : State) : (teardown s).asymsize = s.asymsize := rfl
@[simp] theorem teardown_piv (s : State) : (teardown s).piv = 0 := rfl
@[simp] theorem teardown_cvec (s : State) : (teardown s).cvec = [] := rfl
@[simp] theorem teardown_rows (s : State) : (teardown s).rows = s.rows := rfl
@[simp] theorem teardown_pbuf (s : State) : (teardown s).pbuf = s.pbuf := rfl
@[simp] theorem teardown_blk (s : State) : (teardown s).blk = s.blk := rfl
@[simp] theorem teardown_scrV (s : State) : (teardown s).scrV = s.scrV := rfl
@[simp] theorem teardown_scrD (s : State) : (teardown s).scrD = s.scrD := rfl

/-! ### unconfigure -/

@[simp] theorem unconfigure_params (s : State) : (unconfigure s).params = s.params := rfl
@[simp] theorem unconfigure_rst (s : State) : (unconfigure s).rst = s.rst := rfl
@[simp] theorem unconfigure_inbox (s : State) : (unconfigure s).inbox = s.inbox := rfl
@[simp] theorem unconfigure_draws (s : State) : (unconfigure s).draws = s.draws := rfl
@[simp] theorem unconfigure_resp (s : State) : (unconfigure s).resp = s.resp := rfl
@[simp] theorem unconfigure_pending (s : State) : (unconfigure s).pending = s.pending := rfl
@[simp] theorem unconfigure_ctrl (s : State) : (unconfigure s).ctrl = s.ctrl := rfl
@[simp] theorem unconfigure_done (s : State) : (unconfigure s).done = s.done := rfl
@[simp] theorem unconfigure_configured (s : State) : (unconfigure s).configured = false := rfl
@[simp] theorem unconfigure_coded (s : State) : (unconfigure s).coded = s.coded := rfl
@[simp] theorem unconfigure_unit (s : State) : (unconfigure s).unit = s.unit := rfl
@[simp] theorem unconfigure_lastRead (s : State) : (unconfigure s).lastRead = s.lastRead := rfl
@[simp] theorem unconfigure_err (s : State) : (unconfigure s).err = s.err := rfl
@[simp] theorem unconfigure_errflags (s : State) : (unconfigure s).errflags = s.errflags := rfl
@[simp] theorem unconfigure_result (s : State) : (unconfigure s).result = s.result := rfl
@[simp] theorem unconfigure_cfg0 (s : State) : (unconfigure s).cfg0 = s.cfg0 := rfl
@[simp] theorem unconfigure_cfgSymbols (s : State) : (unconfigure s).cfgSymbols = s.cfgSymbols := rfl
@[simp] theorem unconfigure_cfgSymsize (s : State) : (unconfigure s).cfgSymsize = s.cfgSymsize := rfl
@[simp] theorem unconfigure_cfgDensity (s : State) : (unconfigure s).cfgDensity = s.cfgDensity := rfl
@[simp] theorem unconfigure_genSeed (s : State) : (unconfigure s).genSeed = s.genSeed := rfl
@[simp] theorem unconfigure_plen (s : State) : (unconfigure s).plen = s.plen := rfl
@[simp] theorem unconfigure_psize (s : State) : (unconfigure s).psize = 0 := rfl
@[simp] theorem unconfigure_hsize (s : State) : (unconfigure s).hsize = 0 := rfl
@[simp] theorem unconfigure_rank (s : State) : (unconfigure s).rank = s.rank := rfl
@[simp] theorem unconfigure_cursor (s : State) : (unconfigure s).cursor = s.cursor := rfl
@[simp] theorem unconfigure_density (s : State) : (unconfigure s).density = 0 := rfl
@[simp] theorem unconfigure_seedLast (s : State) : (unconfigure s).seedLast = s.seedLast := rfl
@[simp] theorem unconfigure_acfg0 (s : State) : (unconfigure s).acfg0 = 0 := rfl
@[simp] theorem unconfigure_asymbols (s : State) : (unconfigure s).asymbols = 0 := rfl
@[simp] theorem unconfigure_asymsize (s : State) : (unconfigure s).asymsize = 0 := rfl
@[simp] theorem unconfigure_piv (s : State) : (unconfigure s).piv = s.piv := rfl
@[simp] theorem unconfigure_cvec (s : State) : (unconfigure s).cvec = s.cvec := rfl
@[simp] theorem unconfigure_rows (s : State) : (unconfigure s).rows = s.rows := rfl
@[simp] theorem unconfigure_pbuf (s : State) : (unconfigure s).pbuf = s.pbuf := rfl
@[simp] theorem unconfigure_blk (s : State) : (unconfigure s).blk = s.blk := rfl
@[simp] theorem unconfigure_scrV (s : State) : (unconfigure s).scrV = s.scrV := rfl
@[simp] theorem unconfigure_scrD (s : State) : (unconfigure s).scrD = s.scrD := rfl

/-! ### configure -/

@[simp] theorem configure_params (s : State) : (configure s).params = s.params := rfl
@[simp] theorem configure_rst (s : State) : (configure s).rst = s.rst := rfl
@[simp] theorem configure_inbox (s : State) : (configure s).inbox = s.inbox := rfl
@[simp] theorem configure_draws (s : State) : (configure s).draws = s.draws := rfl
@[simp] theorem configure_resp (s : State) : (configure s).resp = s.resp := rfl
@[simp] theorem configure_pending (s : State) : (configure s).pending = s.pending := rfl
@[simp] theorem configure_ctrl (s : State) : (configure s).ctrl = s.ctrl := rfl
@[simp] theorem configure_done (s : State) : (configure s).done = s.done := rfl
@[simp] theorem configure_configured (s : State) : (configure s).configured = true := rfl
@[simp] theorem configure_coded (s : State) : (configure s).coded = s.coded := rfl
@[simp] theorem configure_unit (s : State) : (configure s).unit = s.unit := rfl
@[simp] theorem configure_lastRead (s : State) : (configure s).lastRead = s.lastRead := rfl
@[simp] theorem configure_err (s : State) : (configure s).err = s.err := rfl
@[simp] theorem configure_errflags (s : State) : (configure s).errflags = s.errflags := rfl
@[simp] theorem configure_result (s : State) : (configure s).result = s.result := rfl
@[simp] theorem configure_cfg0 (s : State) : (configure s).cfg0 = s.cfg0 := rfl
@[simp] theorem configure_cfgSymbols (s : State) : (configure s).cfgSymbols = s.cfgSymbols := rfl
@[simp] theorem configure_cfgSymsize (s : State) : (configure s).cfgSymsize = s.cfgSymsize := rfl
@[simp] theorem configure_cfgDensity (s : State) : (configure s).cfgDensity = s.cfgDensity := rfl
@[simp] theorem configure_genSeed (s : State) : (configure s).genSeed = s.genSeed := rfl
@[simp] theorem configure_plen (s : State) : (configure s).plen = s.plen := rfl
@[simp] theorem configure_psize (s : State) : (configure s).psize = BitVec.ofNat 32 (newHeader s + low16 s.cfgSymsize) := rfl
@[simp] theorem configure_hsize (s : State) : (configure s).hsize = BitVec.ofNat 32 (newHeader s) := rfl
@[simp] theorem configure_rank (s : State) : (configure s).rank = s.rank := rfl
@[simp] theorem configure_cursor (s : State) : (configure s).cursor = s.cursor := rfl
@[simp] theorem configure_density (s : State) : (configure s).density = BitVec.ofNat 32 (low16 s.cfgDensity) := rfl
@[simp] theorem configure_seedLast (s : State) : (configure s).seedLast = s.seedLast := rfl
@[simp] theorem configure_acfg0 (s : State) : (configure s).acfg0 = packCfg (cfgField s.cfg0) (cfgFormat s.cfg0) (cfgRole s.cfg0) := rfl
@[simp] theorem configure_asymbols (s : State) : (configure s).asymbols = BitVec.ofNat 32 (low16 s.cfgSymbols) := rfl
@[simp] theorem configure_asymsize (s : State) : (configure s).asymsize = BitVec.ofNat 32 (low16 s.cfgSymsize) := rfl
@[simp] theorem configure_piv (s : State) : (configure s).piv = s.piv := rfl
@[simp] theorem configure_cvec (s : State) : (configure s).cvec = s.cvec := rfl
@[simp] theorem configure_rows (s : State) : (configure s).rows = s.rows := rfl
@[simp] theorem configure_pbuf (s : State) : (configure s).pbuf = s.pbuf := rfl
@[simp] theorem configure_blk (s : State) : (configure s).blk = s.blk := rfl
@[simp] theorem configure_scrV (s : State) : (configure s).scrV = s.scrV := rfl
@[simp] theorem configure_scrD (s : State) : (configure s).scrD = s.scrD := rfl

/-! ### setResult -/

@[simp] theorem setResult_params (r : Byte) (s : State) : (setResult r s).params = s.params := rfl
@[simp] theorem setResult_rst (r : Byte) (s : State) : (setResult r s).rst = s.rst := rfl
@[simp] theorem setResult_inbox (r : Byte) (s : State) : (setResult r s).inbox = s.inbox := rfl
@[simp] theorem setResult_draws (r : Byte) (s : State) : (setResult r s).draws = s.draws := rfl
@[simp] theorem setResult_resp (r : Byte) (s : State) : (setResult r s).resp = s.resp := rfl
@[simp] theorem setResult_pending (r : Byte) (s : State) : (setResult r s).pending = s.pending := rfl
@[simp] theorem setResult_ctrl (r : Byte) (s : State) : (setResult r s).ctrl = s.ctrl := rfl
@[simp] theorem setResult_done (r : Byte) (s : State) : (setResult r s).done = s.done := rfl
@[simp] theorem setResult_configured (r : Byte) (s : State) : (setResult r s).configured = s.configured := rfl
@[simp] theorem setResult_coded (r : Byte) (s : State) : (setResult r s).coded = s.coded := rfl
@[simp] theorem setResult_unit (r : Byte) (s : State) : (setResult r s).unit = s.unit := rfl
@[simp] theorem setResult_lastRead (r : Byte) (s : State) : (setResult r s).lastRead = s.lastRead := rfl
@[simp] theorem setResult_err (r : Byte) (s : State) : (setResult r s).err = s.err := rfl
@[simp] theorem setResult_errflags (r : Byte) (s : State) : (setResult r s).errflags = s.errflags := rfl
@[simp] theorem setResult_result (r : Byte) (s : State) : (setResult r s).result = r.setWidth 32 := rfl
@[simp] theorem setResult_cfg0 (r : Byte) (s : State) : (setResult r s).cfg0 = s.cfg0 := rfl
@[simp] theorem setResult_cfgSymbols (r : Byte) (s : State) : (setResult r s).cfgSymbols = s.cfgSymbols := rfl
@[simp] theorem setResult_cfgSymsize (r : Byte) (s : State) : (setResult r s).cfgSymsize = s.cfgSymsize := rfl
@[simp] theorem setResult_cfgDensity (r : Byte) (s : State) : (setResult r s).cfgDensity = s.cfgDensity := rfl
@[simp] theorem setResult_genSeed (r : Byte) (s : State) : (setResult r s).genSeed = s.genSeed := rfl
@[simp] theorem setResult_plen (r : Byte) (s : State) : (setResult r s).plen = s.plen := rfl
@[simp] theorem setResult_psize (r : Byte) (s : State) : (setResult r s).psize = s.psize := rfl
@[simp] theorem setResult_hsize (r : Byte) (s : State) : (setResult r s).hsize = s.hsize := rfl
@[simp] theorem setResult_rank (r : Byte) (s : State) : (setResult r s).rank = s.rank := rfl
@[simp] theorem setResult_cursor (r : Byte) (s : State) : (setResult r s).cursor = s.cursor := rfl
@[simp] theorem setResult_density (r : Byte) (s : State) : (setResult r s).density = s.density := rfl
@[simp] theorem setResult_seedLast (r : Byte) (s : State) : (setResult r s).seedLast = s.seedLast := rfl
@[simp] theorem setResult_acfg0 (r : Byte) (s : State) : (setResult r s).acfg0 = s.acfg0 := rfl
@[simp] theorem setResult_asymbols (r : Byte) (s : State) : (setResult r s).asymbols = s.asymbols := rfl
@[simp] theorem setResult_asymsize (r : Byte) (s : State) : (setResult r s).asymsize = s.asymsize := rfl
@[simp] theorem setResult_piv (r : Byte) (s : State) : (setResult r s).piv = s.piv := rfl
@[simp] theorem setResult_cvec (r : Byte) (s : State) : (setResult r s).cvec = s.cvec := rfl
@[simp] theorem setResult_rows (r : Byte) (s : State) : (setResult r s).rows = s.rows := rfl
@[simp] theorem setResult_pbuf (r : Byte) (s : State) : (setResult r s).pbuf = s.pbuf := rfl
@[simp] theorem setResult_blk (r : Byte) (s : State) : (setResult r s).blk = s.blk := rfl
@[simp] theorem setResult_scrV (r : Byte) (s : State) : (setResult r s).scrV = s.scrV := rfl
@[simp] theorem setResult_scrD (r : Byte) (s : State) : (setResult r s).scrD = s.scrD := rfl

/-! ### emit -/

@[simp] theorem emit_params (v hdr body : List Byte) (s : State) : (emit v hdr body s).params = s.params := rfl
@[simp] theorem emit_rst (v hdr body : List Byte) (s : State) : (emit v hdr body s).rst = s.rst := rfl
@[simp] theorem emit_inbox (v hdr body : List Byte) (s : State) : (emit v hdr body s).inbox = s.inbox := rfl
@[simp] theorem emit_draws (v hdr body : List Byte) (s : State) : (emit v hdr body s).draws = s.draws := rfl
@[simp] theorem emit_resp (v hdr body : List Byte) (s : State) : (emit v hdr body s).resp = s.resp := rfl
@[simp] theorem emit_pending (v hdr body : List Byte) (s : State) : (emit v hdr body s).pending = s.pending := rfl
@[simp] theorem emit_ctrl (v hdr body : List Byte) (s : State) : (emit v hdr body s).ctrl = s.ctrl := rfl
@[simp] theorem emit_done (v hdr body : List Byte) (s : State) : (emit v hdr body s).done = s.done := rfl
@[simp] theorem emit_configured (v hdr body : List Byte) (s : State) : (emit v hdr body s).configured = s.configured := rfl
@[simp] theorem emit_coded (v hdr body : List Byte) (s : State) : (emit v hdr body s).coded = s.coded := rfl
@[simp] theorem emit_unit (v hdr body : List Byte) (s : State) : (emit v hdr body s).unit = s.unit := rfl
@[simp] theorem emit_lastRead (v hdr body : List Byte) (s : State) : (emit v hdr body s).lastRead = s.lastRead := rfl
@[simp] theorem emit_err (v hdr body : List Byte) (s : State) : (emit v hdr body s).err = s.err := rfl
@[simp] theorem emit_errflags (v hdr body : List Byte) (s : State) : (emit v hdr body s).errflags = s.errflags := rfl
@[simp] theorem emit_result (v hdr body : List Byte) (s : State) : (emit v hdr body s).result = s.result := rfl
@[simp] theorem emit_cfg0 (v hdr body : List Byte) (s : State) : (emit v hdr body s).cfg0 = s.cfg0 := rfl
@[simp] theorem emit_cfgSymbols (v hdr body : List Byte) (s : State) : (emit v hdr body s).cfgSymbols = s.cfgSymbols := rfl
@[simp] theorem emit_cfgSymsize (v hdr body : List Byte) (s : State) : (emit v hdr body s).cfgSymsize = s.cfgSymsize := rfl
@[simp] theorem emit_cfgDensity (v hdr body : List Byte) (s : State) : (emit v hdr body s).cfgDensity = s.cfgDensity := rfl
@[simp] theorem emit_genSeed (v hdr body : List Byte) (s : State) : (emit v hdr body s).genSeed = s.genSeed := rfl
@[simp] theorem emit_plen (v hdr body : List Byte) (s : State) : (emit v hdr body s).plen = s.psize := rfl
@[simp] theorem emit_psize (v hdr body : List Byte) (s : State) : (emit v hdr body s).psize = s.psize := rfl
@[simp] theorem emit_hsize (v hdr body : List Byte) (s : State) : (emit v hdr body s).hsize = s.hsize := rfl
@[simp] theorem emit_rank (v hdr body : List Byte) (s : State) : (emit v hdr body s).rank = s.rank := rfl
@[simp] theorem emit_cursor (v hdr body : List Byte) (s : State) : (emit v hdr body s).cursor = s.cursor := rfl
@[simp] theorem emit_density (v hdr body : List Byte) (s : State) : (emit v hdr body s).density = s.density := rfl
@[simp] theorem emit_seedLast (v hdr body : List Byte) (s : State) : (emit v hdr body s).seedLast = s.seedLast := rfl
@[simp] theorem emit_acfg0 (v hdr body : List Byte) (s : State) : (emit v hdr body s).acfg0 = s.acfg0 := rfl
@[simp] theorem emit_asymbols (v hdr body : List Byte) (s : State) : (emit v hdr body s).asymbols = s.asymbols := rfl
@[simp] theorem emit_asymsize (v hdr body : List Byte) (s : State) : (emit v hdr body s).asymsize = s.asymsize := rfl
@[simp] theorem emit_piv (v hdr body : List Byte) (s : State) : (emit v hdr body s).piv = s.piv := rfl
@[simp] theorem emit_cvec (v hdr body : List Byte) (s : State) : (emit v hdr body s).cvec = s.cvec.writeRun 0 v := rfl
@[simp] theorem emit_rows (v hdr body : List Byte) (s : State) : (emit v hdr body s).rows = s.rows := rfl
@[simp] theorem emit_pbuf (v hdr body : List Byte) (s : State) : (emit v hdr body s).pbuf = framePayload hdr body s.pbuf := rfl
@[simp] theorem emit_blk (v hdr body : List Byte) (s : State) : (emit v hdr body s).blk = s.blk := rfl
@[simp] theorem emit_scrV (v hdr body : List Byte) (s : State) : (emit v hdr body s).scrV = s.scrV := rfl
@[simp] theorem emit_scrD (v hdr body : List Byte) (s : State) : (emit v hdr body s).scrD = s.scrD := rfl

/-! ### readIgnored -/

@[simp] theorem readIgnored_params (s : State) : (readIgnored s).params = s.params := rfl
@[simp] theorem readIgnored_rst (s : State) : (readIgnored s).rst = s.rst := rfl
@[simp] theorem readIgnored_inbox (s : State) : (readIgnored s).inbox = s.inbox := rfl
@[simp] theorem readIgnored_draws (s : State) : (readIgnored s).draws = s.draws := rfl
@[simp] theorem readIgnored_resp (s : State) : (readIgnored s).resp = s.resp := rfl
@[simp] theorem readIgnored_pending (s : State) : (readIgnored s).pending = s.pending := rfl
@[simp] theorem readIgnored_ctrl (s : State) : (readIgnored s).ctrl = s.ctrl := rfl
@[simp] theorem readIgnored_done (s : State) : (readIgnored s).done = s.done := rfl
@[simp] theorem readIgnored_configured (s : State) : (readIgnored s).configured = s.configured := rfl
@[simp] theorem readIgnored_coded (s : State) : (readIgnored s).coded = s.coded := rfl
@[simp] theorem readIgnored_unit (s : State) : (readIgnored s).unit = false := rfl
@[simp] theorem readIgnored_lastRead (s : State) : (readIgnored s).lastRead = .ignored := rfl
@[simp] theorem readIgnored_err (s : State) : (readIgnored s).err = s.err := rfl
@[simp] theorem readIgnored_errflags (s : State) : (readIgnored s).errflags = s.errflags := rfl
@[simp] theorem readIgnored_result (s : State) : (readIgnored s).result = s.result := rfl
@[simp] theorem readIgnored_cfg0 (s : State) : (readIgnored s).cfg0 = s.cfg0 := rfl
@[simp] theorem readIgnored_cfgSymbols (s : State) : (readIgnored s).cfgSymbols = s.cfgSymbols := rfl
@[simp] theorem readIgnored_cfgSymsize (s : State) : (readIgnored s).cfgSymsize = s.cfgSymsize := rfl
@[simp] theorem readIgnored_cfgDensity (s : State) : (readIgnored s).cfgDensity = s.cfgDensity := rfl
@[simp] theorem readIgnored_genSeed (s : State) : (readIgnored s).genSeed = s.genSeed := rfl
@[simp] theorem readIgnored_plen (s : State) : (readIgnored s).plen = s.plen := rfl
@[simp] theorem readIgnored_psize (s : State) : (readIgnored s).psize = s.psize := rfl
@[simp] theorem readIgnored_hsize (s : State) : (readIgnored s).hsize = s.hsize := rfl
@[simp] theorem readIgnored_rank (s : State) : (readIgnored s).rank = s.rank := rfl
@[simp] theorem readIgnored_cursor (s : State) : (readIgnored s).cursor = s.cursor := rfl
@[simp] theorem readIgnored_density (s : State) : (readIgnored s).density = s.density := rfl
@[simp] theorem readIgnored_seedLast (s : State) : (readIgnored s).seedLast = s.seedLast := rfl
@[simp] theorem readIgnored_acfg0 (s : State) : (readIgnored s).acfg0 = s.acfg0 := rfl
@[simp] theorem readIgnored_asymbols (s : State) : (readIgnored s).asymbols = s.asymbols := rfl
@[simp] theorem readIgnored_asymsize (s : State) : (readIgnored s).asymsize = s.asymsize := rfl
@[simp] theorem readIgnored_piv (s : State) : (readIgnored s).piv = s.piv := rfl
@[simp] theorem readIgnored_cvec (s : State) : (readIgnored s).cvec = s.cvec := rfl
@[simp] theorem readIgnored_rows (s : State) : (readIgnored s).rows = s.rows := rfl
@[simp] theorem readIgnored_pbuf (s : State) : (readIgnored s).pbuf = s.pbuf := rfl
@[simp] theorem readIgnored_blk (s : State) : (readIgnored s).blk = s.blk := rfl
@[simp] theorem readIgnored_scrV (s : State) : (readIgnored s).scrV = s.scrV := rfl
@[simp] theorem readIgnored_scrD (s : State) : (readIgnored s).scrD = s.scrD := rfl

/-! ### readDependent -/

@[simp] theorem readDependent_params (v : List Byte) (x : Scratch) (s : State) : (readDependent v x s).params = s.params := rfl
@[simp] theorem readDependent_rst (v : List Byte) (x : Scratch) (s : State) : (readDependent v x s).rst = s.rst := rfl
@[simp] theorem readDependent_inbox (v : List Byte) (x : Scratch) (s : State) : (readDependent v x s).inbox = s.inbox := rfl
@[simp] theorem readDependent_draws (v : List Byte) (x : Scratch) (s : State) : (readDependent v x s).draws = s.draws := rfl
@[simp] theorem readDependent_resp (v : List Byte) (x : Scratch) (s : State) : (readDependent v x s).resp = s.resp := rfl
@[simp] theorem readDependent_pending (v : List Byte) (x : Scratch) (s : State) : (readDependent v x s).pending = s.pending := rfl
@[simp] theorem readDependent_ctrl (v : List Byte) (x : Scratch) (s : State) : (readDependent v x s).ctrl = s.ctrl := rfl
@[simp] theorem readDependent_done (v : List Byte) (x : Scratch) (s : State) : (readDependent v x s).done = s.done := rfl
@[simp] theorem readDependent_configured (v : List Byte) (x : Scratch) (s : State) : (readDependent v x s).configured = s.configured := rfl
@[simp] theorem readDependent_coded (v : List Byte) (x : Scratch) (s : State) : (readDependent v x s).coded = s.coded := rfl
@[simp] theorem readDependent_unit (v : List Byte) (x : Scratch) (s : State) : (readDependent v x s).unit = false := rfl
@[simp] theorem readDependent_lastRead (v : List Byte) (x : Scratch) (s : State) : (readDependent v x s).lastRead = .dependent := rfl
@[simp] theorem readDependent_err (v : List Byte) (x : Scratch) (s : State) : (readDependent v x s).err = s.err := rfl
@[simp] theorem readDependent_errflags (v : List Byte) (x : Scratch) (s : State) : (readDependent v x s).errflags = s.errflags := rfl
@[simp] theorem readDependent_result (v : List Byte) (x : Scratch) (s : State) : (readDependent v x s).result = s.result := rfl
@[simp] theorem readDependent_cfg0 (v : List Byte) (x : Scratch) (s : State) : (readDependent v x s).cfg0 = s.cfg0 := rfl
@[simp] theorem readDependent_cfgSymbols (v : List Byte) (x : Scratch) (s : State) : (readDependent v x s).cfgSymbols = s.cfgSymbols := rfl
@[simp] theorem readDependent_cfgSymsize (v : List Byte) (x : Scratch) (s : State) : (readDependent v x s).cfgSymsize = s.cfgSymsize := rfl
@[simp] theorem readDependent_cfgDensity (v : List Byte) (x : Scratch) (s : State) : (readDependent v x s).cfgDensity = s.cfgDensity := rfl
@[simp] theorem readDependent_genSeed (v : List Byte) (x : Scratch) (s : State) : (readDependent v x s).genSeed = s.genSeed := rfl
@[simp] theorem readDependent_plen (v : List Byte) (x : Scratch) (s : State) : (readDependent v x s).plen = s.plen := rfl
@[simp] theorem readDependent_psize (v : List Byte) (x : Scratch) (s : State) : (readDependent v x s).psize = s.psize := rfl
@[simp] theorem readDependent_hsize (v : List Byte) (x : Scratch) (s : State) : (readDependent v x s).hsize = s.hsize := rfl
@[simp] theorem readDependent_rank (v : List Byte) (x : Scratch) (s : State) : (readDependent v x s).rank = s.rank := rfl
@[simp] theorem readDependent_cursor (v : List Byte) (x : Scratch) (s : State) : (readDependent v x s).cursor = s.cursor := rfl
@[simp] theorem readDependent_density (v : List Byte) (x : Scratch) (s : State) : (readDependent v x s).density = s.density := rfl
@[simp] theorem readDependent_seedLast (v : List Byte) (x : Scratch) (s : State) : (readDependent v x s).seedLast = s.seedLast := rfl
@[simp] theorem readDependent_acfg0 (v : List Byte) (x : Scratch) (s : State) : (readDependent v x s).acfg0 = s.acfg0 := rfl
@[simp] theorem readDependent_asymbols (v : List Byte) (x : Scratch) (s : State) : (readDependent v x s).asymbols = s.asymbols := rfl
@[simp] theorem readDependent_asymsize (v : List Byte) (x : Scratch) (s : State) : (readDependent v x s).asymsize = s.asymsize := rfl
@[simp] theorem readDependent_piv (v : List Byte) (x : Scratch) (s : State) : (readDependent v x s).piv = s.piv := rfl
@[simp] theorem readDependent_cvec (v : List Byte) (x : Scratch) (s : State) : (readDependent v x s).cvec = s.cvec.writeRun 0 v := rfl
@[simp] theorem readDependent_rows (v : List Byte) (x : Scratch) (s : State) : (readDependent v x s).rows = s.rows := rfl
@[simp] theorem readDependent_pbuf (v : List Byte) (x : Scratch) (s : State) : (readDependent v x s).pbuf = s.pbuf := rfl
@[simp] theorem readDependent_blk (v : List Byte) (x : Scratch) (s : State) : (readDependent v x s).blk = s.blk := rfl
@[simp] theorem readDependent_scrV (v : List Byte) (x : Scratch) (s : State) : (readDependent v x s).scrV = x.v := rfl
@[simp] theorem readDependent_scrD (v : List Byte) (x : Scratch) (s : State) : (readDependent v x s).scrD = x.d := rfl

/-! ### writeStatus -/

@[simp] theorem writeStatus_params (v : Word) (s : State) : (writeStatus v s).params = s.params := rfl
@[simp] theorem writeStatus_rst (v : Word) (s : State) : (writeStatus v s).rst = s.rst := rfl
@[simp] theorem writeStatus_inbox (v : Word) (s : State) : (writeStatus v s).inbox = s.inbox := rfl
@[simp] theorem writeStatus_draws (v : Word) (s : State) : (writeStatus v s).draws = s.draws := rfl
@[simp] theorem writeStatus_resp (v : Word) (s : State) : (writeStatus v s).resp = s.resp := rfl
@[simp] theorem writeStatus_pending (v : Word) (s : State) : (writeStatus v s).pending = s.pending := rfl
@[simp] theorem writeStatus_ctrl (v : Word) (s : State) : (writeStatus v s).ctrl = s.ctrl := rfl
@[simp] theorem writeStatus_done (v : Word) (s : State) : (writeStatus v s).done = (s.done && !v.getLsbD 1) := rfl
@[simp] theorem writeStatus_configured (v : Word) (s : State) : (writeStatus v s).configured = s.configured := rfl
@[simp] theorem writeStatus_coded (v : Word) (s : State) : (writeStatus v s).coded = s.coded := rfl
@[simp] theorem writeStatus_unit (v : Word) (s : State) : (writeStatus v s).unit = s.unit := rfl
@[simp] theorem writeStatus_lastRead (v : Word) (s : State) : (writeStatus v s).lastRead = s.lastRead := rfl
@[simp] theorem writeStatus_err (v : Word) (s : State) : (writeStatus v s).err = s.err := rfl
@[simp] theorem writeStatus_errflags (v : Word) (s : State) : (writeStatus v s).errflags = s.errflags := rfl
@[simp] theorem writeStatus_result (v : Word) (s : State) : (writeStatus v s).result = s.result := rfl
@[simp] theorem writeStatus_cfg0 (v : Word) (s : State) : (writeStatus v s).cfg0 = s.cfg0 := rfl
@[simp] theorem writeStatus_cfgSymbols (v : Word) (s : State) : (writeStatus v s).cfgSymbols = s.cfgSymbols := rfl
@[simp] theorem writeStatus_cfgSymsize (v : Word) (s : State) : (writeStatus v s).cfgSymsize = s.cfgSymsize := rfl
@[simp] theorem writeStatus_cfgDensity (v : Word) (s : State) : (writeStatus v s).cfgDensity = s.cfgDensity := rfl
@[simp] theorem writeStatus_genSeed (v : Word) (s : State) : (writeStatus v s).genSeed = s.genSeed := rfl
@[simp] theorem writeStatus_plen (v : Word) (s : State) : (writeStatus v s).plen = s.plen := rfl
@[simp] theorem writeStatus_psize (v : Word) (s : State) : (writeStatus v s).psize = s.psize := rfl
@[simp] theorem writeStatus_hsize (v : Word) (s : State) : (writeStatus v s).hsize = s.hsize := rfl
@[simp] theorem writeStatus_rank (v : Word) (s : State) : (writeStatus v s).rank = s.rank := rfl
@[simp] theorem writeStatus_cursor (v : Word) (s : State) : (writeStatus v s).cursor = s.cursor := rfl
@[simp] theorem writeStatus_density (v : Word) (s : State) : (writeStatus v s).density = s.density := rfl
@[simp] theorem writeStatus_seedLast (v : Word) (s : State) : (writeStatus v s).seedLast = s.seedLast := rfl
@[simp] theorem writeStatus_acfg0 (v : Word) (s : State) : (writeStatus v s).acfg0 = s.acfg0 := rfl
@[simp] theorem writeStatus_asymbols (v : Word) (s : State) : (writeStatus v s).asymbols = s.asymbols := rfl
@[simp] theorem writeStatus_asymsize (v : Word) (s : State) : (writeStatus v s).asymsize = s.asymsize := rfl
@[simp] theorem writeStatus_piv (v : Word) (s : State) : (writeStatus v s).piv = s.piv := rfl
@[simp] theorem writeStatus_cvec (v : Word) (s : State) : (writeStatus v s).cvec = s.cvec := rfl
@[simp] theorem writeStatus_rows (v : Word) (s : State) : (writeStatus v s).rows = s.rows := rfl
@[simp] theorem writeStatus_pbuf (v : Word) (s : State) : (writeStatus v s).pbuf = s.pbuf := rfl
@[simp] theorem writeStatus_blk (v : Word) (s : State) : (writeStatus v s).blk = s.blk := rfl
@[simp] theorem writeStatus_scrV (v : Word) (s : State) : (writeStatus v s).scrV = s.scrV := rfl
@[simp] theorem writeStatus_scrD (v : Word) (s : State) : (writeStatus v s).scrD = s.scrD := rfl

/-! ### writeErrflags -/

@[simp] theorem writeErrflags_params (v : Word) (s : State) : (writeErrflags v s).params = s.params := rfl
@[simp] theorem writeErrflags_rst (v : Word) (s : State) : (writeErrflags v s).rst = s.rst := rfl
@[simp] theorem writeErrflags_inbox (v : Word) (s : State) : (writeErrflags v s).inbox = s.inbox := rfl
@[simp] theorem writeErrflags_draws (v : Word) (s : State) : (writeErrflags v s).draws = s.draws := rfl
@[simp] theorem writeErrflags_resp (v : Word) (s : State) : (writeErrflags v s).resp = s.resp := rfl
@[simp] theorem writeErrflags_pending (v : Word) (s : State) : (writeErrflags v s).pending = s.pending := rfl
@[simp] theorem writeErrflags_ctrl (v : Word) (s : State) : (writeErrflags v s).ctrl = s.ctrl := rfl
@[simp] theorem writeErrflags_done (v : Word) (s : State) : (writeErrflags v s).done = s.done := rfl
@[simp] theorem writeErrflags_configured (v : Word) (s : State) : (writeErrflags v s).configured = s.configured := rfl
@[simp] theorem writeErrflags_coded (v : Word) (s : State) : (writeErrflags v s).coded = s.coded := rfl
@[simp] theorem writeErrflags_unit (v : Word) (s : State) : (writeErrflags v s).unit = s.unit := rfl
@[simp] theorem writeErrflags_lastRead (v : Word) (s : State) : (writeErrflags v s).lastRead = s.lastRead := rfl
@[simp] theorem writeErrflags_err (v : Word) (s : State) : (writeErrflags v s).err = s.err := rfl
@[simp] theorem writeErrflags_errflags (v : Word) (s : State) : (writeErrflags v s).errflags = s.errflags &&& ~~~v := rfl
@[simp] theorem writeErrflags_result (v : Word) (s : State) : (writeErrflags v s).result = s.result := rfl
@[simp] theorem writeErrflags_cfg0 (v : Word) (s : State) : (writeErrflags v s).cfg0 = s.cfg0 := rfl
@[simp] theorem writeErrflags_cfgSymbols (v : Word) (s : State) : (writeErrflags v s).cfgSymbols = s.cfgSymbols := rfl
@[simp] theorem writeErrflags_cfgSymsize (v : Word) (s : State) : (writeErrflags v s).cfgSymsize = s.cfgSymsize := rfl
@[simp] theorem writeErrflags_cfgDensity (v : Word) (s : State) : (writeErrflags v s).cfgDensity = s.cfgDensity := rfl
@[simp] theorem writeErrflags_genSeed (v : Word) (s : State) : (writeErrflags v s).genSeed = s.genSeed := rfl
@[simp] theorem writeErrflags_plen (v : Word) (s : State) : (writeErrflags v s).plen = s.plen := rfl
@[simp] theorem writeErrflags_psize (v : Word) (s : State) : (writeErrflags v s).psize = s.psize := rfl
@[simp] theorem writeErrflags_hsize (v : Word) (s : State) : (writeErrflags v s).hsize = s.hsize := rfl
@[simp] theorem writeErrflags_rank (v : Word) (s : State) : (writeErrflags v s).rank = s.rank := rfl
@[simp] theorem writeErrflags_cursor (v : Word) (s : State) : (writeErrflags v s).cursor = s.cursor := rfl
@[simp] theorem writeErrflags_density (v : Word) (s : State) : (writeErrflags v s).density = s.density := rfl
@[simp] theorem writeErrflags_seedLast (v : Word) (s : State) : (writeErrflags v s).seedLast = s.seedLast := rfl
@[simp] theorem writeErrflags_acfg0 (v : Word) (s : State) : (writeErrflags v s).acfg0 = s.acfg0 := rfl
@[simp] theorem writeErrflags_asymbols (v : Word) (s : State) : (writeErrflags v s).asymbols = s.asymbols := rfl
@[simp] theorem writeErrflags_asymsize (v : Word) (s : State) : (writeErrflags v s).asymsize = s.asymsize := rfl
@[simp] theorem writeErrflags_piv (v : Word) (s : State) : (writeErrflags v s).piv = s.piv := rfl
@[simp] theorem writeErrflags_cvec (v : Word) (s : State) : (writeErrflags v s).cvec = s.cvec := rfl
@[simp] theorem writeErrflags_rows (v : Word) (s : State) : (writeErrflags v s).rows = s.rows := rfl
@[simp] theorem writeErrflags_pbuf (v : Word) (s : State) : (writeErrflags v s).pbuf = s.pbuf := rfl
@[simp] theorem writeErrflags_blk (v : Word) (s : State) : (writeErrflags v s).blk = s.blk := rfl
@[simp] theorem writeErrflags_scrV (v : Word) (s : State) : (writeErrflags v s).scrV = s.scrV := rfl
@[simp] theorem writeErrflags_scrD (v : Word) (s : State) : (writeErrflags v s).scrD = s.scrD := rfl

/-! ### readInnovative -/

@[simp] theorem readInnovative_params (v : List Byte) (pcol : Nat) (x : Scratch) (s : State) :
    (readInnovative v pcol x s).params = s.params := rfl
@[simp] theorem readInnovative_rst (v : List Byte) (pcol : Nat) (x : Scratch) (s : State) :
    (readInnovative v pcol x s).rst = s.rst := rfl
@[simp] theorem readInnovative_inbox (v : List Byte) (pcol : Nat) (x : Scratch) (s : State) :
    (readInnovative v pcol x s).inbox = s.inbox := rfl
@[simp] theorem readInnovative_draws (v : List Byte) (pcol : Nat) (x : Scratch) (s : State) :
    (readInnovative v pcol x s).draws = s.draws := rfl
@[simp] theorem readInnovative_resp (v : List Byte) (pcol : Nat) (x : Scratch) (s : State) :
    (readInnovative v pcol x s).resp = s.resp := rfl
@[simp] theorem readInnovative_pending (v : List Byte) (pcol : Nat) (x : Scratch) (s : State) :
    (readInnovative v pcol x s).pending = s.pending := rfl
@[simp] theorem readInnovative_ctrl (v : List Byte) (pcol : Nat) (x : Scratch) (s : State) :
    (readInnovative v pcol x s).ctrl = s.ctrl := rfl
@[simp] theorem readInnovative_done (v : List Byte) (pcol : Nat) (x : Scratch) (s : State) :
    (readInnovative v pcol x s).done = s.done := rfl
@[simp] theorem readInnovative_configured (v : List Byte) (pcol : Nat) (x : Scratch) (s : State) :
    (readInnovative v pcol x s).configured = s.configured := rfl
@[simp] theorem readInnovative_coded (v : List Byte) (pcol : Nat) (x : Scratch) (s : State) :
    (readInnovative v pcol x s).coded = s.coded := rfl
@[simp] theorem readInnovative_unit (v : List Byte) (pcol : Nat) (x : Scratch) (s : State) :
    (readInnovative v pcol x s).unit = isUnitRow x.v := rfl
@[simp] theorem readInnovative_lastRead (v : List Byte) (pcol : Nat) (x : Scratch) (s : State) :
    (readInnovative v pcol x s).lastRead = .innovative := rfl
@[simp] theorem readInnovative_err (v : List Byte) (pcol : Nat) (x : Scratch) (s : State) :
    (readInnovative v pcol x s).err = s.err := rfl
@[simp] theorem readInnovative_errflags (v : List Byte) (pcol : Nat) (x : Scratch) (s : State) :
    (readInnovative v pcol x s).errflags = s.errflags := rfl
@[simp] theorem readInnovative_result (v : List Byte) (pcol : Nat) (x : Scratch) (s : State) :
    (readInnovative v pcol x s).result = s.result := rfl
@[simp] theorem readInnovative_cfg0 (v : List Byte) (pcol : Nat) (x : Scratch) (s : State) :
    (readInnovative v pcol x s).cfg0 = s.cfg0 := rfl
@[simp] theorem readInnovative_cfgSymbols (v : List Byte) (pcol : Nat) (x : Scratch) (s : State) :
    (readInnovative v pcol x s).cfgSymbols = s.cfgSymbols := rfl
@[simp] theorem readInnovative_cfgSymsize (v : List Byte) (pcol : Nat) (x : Scratch) (s : State) :
    (readInnovative v pcol x s).cfgSymsize = s.cfgSymsize := rfl
@[simp] theorem readInnovative_cfgDensity (v : List Byte) (pcol : Nat) (x : Scratch) (s : State) :
    (readInnovative v pcol x s).cfgDensity = s.cfgDensity := rfl
@[simp] theorem readInnovative_genSeed (v : List Byte) (pcol : Nat) (x : Scratch) (s : State) :
    (readInnovative v pcol x s).genSeed = s.genSeed := rfl
@[simp] theorem readInnovative_plen (v : List Byte) (pcol : Nat) (x : Scratch) (s : State) :
    (readInnovative v pcol x s).plen = s.plen := rfl
@[simp] theorem readInnovative_psize (v : List Byte) (pcol : Nat) (x : Scratch) (s : State) :
    (readInnovative v pcol x s).psize = s.psize := rfl
@[simp] theorem readInnovative_hsize (v : List Byte) (pcol : Nat) (x : Scratch) (s : State) :
    (readInnovative v pcol x s).hsize = s.hsize := rfl
@[simp] theorem readInnovative_rank (v : List Byte) (pcol : Nat) (x : Scratch) (s : State) :
    (readInnovative v pcol x s).rank = s.rank + 1#32 := rfl
@[simp] theorem readInnovative_cursor (v : List Byte) (pcol : Nat) (x : Scratch) (s : State) :
    (readInnovative v pcol x s).cursor = s.cursor := rfl
@[simp] theorem readInnovative_density (v : List Byte) (pcol : Nat) (x : Scratch) (s : State) :
    (readInnovative v pcol x s).density = s.density := rfl
@[simp] theorem readInnovative_seedLast (v : List Byte) (pcol : Nat) (x : Scratch) (s : State) :
    (readInnovative v pcol x s).seedLast = s.seedLast := rfl
@[simp] theorem readInnovative_acfg0 (v : List Byte) (pcol : Nat) (x : Scratch) (s : State) :
    (readInnovative v pcol x s).acfg0 = s.acfg0 := rfl
@[simp] theorem readInnovative_asymbols (v : List Byte) (pcol : Nat) (x : Scratch) (s : State) :
    (readInnovative v pcol x s).asymbols = s.asymbols := rfl
@[simp] theorem readInnovative_asymsize (v : List Byte) (pcol : Nat) (x : Scratch) (s : State) :
    (readInnovative v pcol x s).asymsize = s.asymsize := rfl
@[simp] theorem readInnovative_piv (v : List Byte) (pcol : Nat) (x : Scratch) (s : State) :
    (readInnovative v pcol x s).piv = pivSet s.piv pcol := rfl
@[simp] theorem readInnovative_cvec (v : List Byte) (pcol : Nat) (x : Scratch) (s : State) :
    (readInnovative v pcol x s).cvec = s.cvec.writeRun 0 v := rfl
@[simp] theorem readInnovative_rows (v : List Byte) (pcol : Nat) (x : Scratch) (s : State) :
    (readInnovative v pcol x s).rows = (storeRow s.symSize pcol x (backSubst s.params s.field s.k s.symSize s.piv pcol x ⟨s.rows, s.blk⟩)).rows := rfl
@[simp] theorem readInnovative_pbuf (v : List Byte) (pcol : Nat) (x : Scratch) (s : State) :
    (readInnovative v pcol x s).pbuf = s.pbuf := rfl
@[simp] theorem readInnovative_blk (v : List Byte) (pcol : Nat) (x : Scratch) (s : State) :
    (readInnovative v pcol x s).blk = (storeRow s.symSize pcol x (backSubst s.params s.field s.k s.symSize s.piv pcol x ⟨s.rows, s.blk⟩)).blk := rfl
@[simp] theorem readInnovative_scrV (v : List Byte) (pcol : Nat) (x : Scratch) (s : State) :
    (readInnovative v pcol x s).scrV = x.v := rfl
@[simp] theorem readInnovative_scrD (v : List Byte) (pcol : Nat) (x : Scratch) (s : State) :
    (readInnovative v pcol x s).scrD = x.d := rfl

/-! ### resetTo -/

@[simp] theorem resetTo_params (d : PowerOn) (s : State) : (resetTo d s).params = s.params := rfl
@[simp] theorem resetTo_rst (d : PowerOn) (s : State) : (resetTo d s).rst = true := rfl
@[simp] theorem resetTo_inbox (d : PowerOn) (s : State) : (resetTo d s).inbox = s.inbox := rfl
@[simp] theorem resetTo_draws (d : PowerOn) (s : State) : (resetTo d s).draws = s.draws := rfl
@[simp] theorem resetTo_resp (d : PowerOn) (s : State) : (resetTo d s).resp = d.abandoned := rfl
@[simp] theorem resetTo_pending (d : PowerOn) (s : State) : (resetTo d s).pending = State.reset.pending := rfl
@[simp] theorem resetTo_ctrl (d : PowerOn) (s : State) : (resetTo d s).ctrl = State.reset.ctrl := rfl
@[simp] theorem resetTo_done (d : PowerOn) (s : State) : (resetTo d s).done = State.reset.done := rfl
@[simp] theorem resetTo_configured (d : PowerOn) (s : State) : (resetTo d s).configured = State.reset.configured := rfl
@[simp] theorem resetTo_coded (d : PowerOn) (s : State) : (resetTo d s).coded = State.reset.coded := rfl
@[simp] theorem resetTo_unit (d : PowerOn) (s : State) : (resetTo d s).unit = State.reset.unit := rfl
@[simp] theorem resetTo_lastRead (d : PowerOn) (s : State) : (resetTo d s).lastRead = State.reset.lastRead := rfl
@[simp] theorem resetTo_err (d : PowerOn) (s : State) : (resetTo d s).err = State.reset.err := rfl
@[simp] theorem resetTo_errflags (d : PowerOn) (s : State) : (resetTo d s).errflags = State.reset.errflags := rfl
@[simp] theorem resetTo_result (d : PowerOn) (s : State) : (resetTo d s).result = State.reset.result := rfl
@[simp] theorem resetTo_cfg0 (d : PowerOn) (s : State) : (resetTo d s).cfg0 = State.reset.cfg0 := rfl
@[simp] theorem resetTo_cfgSymbols (d : PowerOn) (s : State) : (resetTo d s).cfgSymbols = State.reset.cfgSymbols := rfl
@[simp] theorem resetTo_cfgSymsize (d : PowerOn) (s : State) : (resetTo d s).cfgSymsize = State.reset.cfgSymsize := rfl
@[simp] theorem resetTo_cfgDensity (d : PowerOn) (s : State) : (resetTo d s).cfgDensity = State.reset.cfgDensity := rfl
@[simp] theorem resetTo_genSeed (d : PowerOn) (s : State) : (resetTo d s).genSeed = State.reset.genSeed := rfl
@[simp] theorem resetTo_plen (d : PowerOn) (s : State) : (resetTo d s).plen = State.reset.plen := rfl
@[simp] theorem resetTo_psize (d : PowerOn) (s : State) : (resetTo d s).psize = State.reset.psize := rfl
@[simp] theorem resetTo_hsize (d : PowerOn) (s : State) : (resetTo d s).hsize = State.reset.hsize := rfl
@[simp] theorem resetTo_rank (d : PowerOn) (s : State) : (resetTo d s).rank = State.reset.rank := rfl
@[simp] theorem resetTo_cursor (d : PowerOn) (s : State) : (resetTo d s).cursor = State.reset.cursor := rfl
@[simp] theorem resetTo_density (d : PowerOn) (s : State) : (resetTo d s).density = State.reset.density := rfl
@[simp] theorem resetTo_seedLast (d : PowerOn) (s : State) : (resetTo d s).seedLast = State.reset.seedLast := rfl
@[simp] theorem resetTo_acfg0 (d : PowerOn) (s : State) : (resetTo d s).acfg0 = State.reset.acfg0 := rfl
@[simp] theorem resetTo_asymbols (d : PowerOn) (s : State) : (resetTo d s).asymbols = State.reset.asymbols := rfl
@[simp] theorem resetTo_asymsize (d : PowerOn) (s : State) : (resetTo d s).asymsize = State.reset.asymsize := rfl
@[simp] theorem resetTo_piv (d : PowerOn) (s : State) : (resetTo d s).piv = State.reset.piv := rfl
@[simp] theorem resetTo_cvec (d : PowerOn) (s : State) : (resetTo d s).cvec = State.reset.cvec := rfl
@[simp] theorem resetTo_rows (d : PowerOn) (s : State) : (resetTo d s).rows = Memory.ofCells (rowsInside s.params) d.rows := rfl
@[simp] theorem resetTo_pbuf (d : PowerOn) (s : State) : (resetTo d s).pbuf = Memory.ofCells (fun a => decide (a < pbufBytes s.params)) d.pbuf := rfl
@[simp] theorem resetTo_blk (d : PowerOn) (s : State) : (resetTo d s).blk = Memory.ofCells (fun a => decide (a < blockBytes s.params)) d.blk := rfl
@[simp] theorem resetTo_scrV (d : PowerOn) (s : State) : (resetTo d s).scrV = d.scrV := rfl
@[simp] theorem resetTo_scrD (d : PowerOn) (s : State) : (resetTo d s).scrD = d.scrD := rfl

end Sys2Proof.Machine
end

