-- ==== Sys2Proof/Laws/Ops.lean ====
section
/-! SUPPORT. One lemma for each shared operation that says once everything it can do; the proofs cite these instead of unfolding the
operations. -/

namespace Sys2Proof.Machine

open Sys2Proof

theorem raise_eq (e : ErrCode) (s : State) : raise e s = .next (complete e s) := rfl

theorem finish_eq (s : State) : finish s = .next (complete .none s) := rfl

theorem wait_eq (s : State) : wait s = .next s := rfl

theorem raise_next {e : ErrCode} {s t : State} : raise e s = .next t ↔ t = complete e s := by
  simp [raise, eq_comm]

theorem finish_next {s t : State} : finish s = .next t ↔ t = complete .none s := by
  simp [finish, eq_comm]

theorem wait_next {s t : State} : wait s = .next t ↔ t = s := by
  simp [wait, eq_comm]

/-- Step 3 of R272: STATE, or the body runs. -/
theorem withInstance_cases {s : State} {body r : Result} (h : withInstance s body = r) :
    (s.configured = false ∧ r = raise .state s) ∨ (s.configured = true ∧ r = body) := by
  cases hc : s.configured <;> simp [withInstance, hc] at h <;> simp [← h]

theorem withInstance_of_configured {s : State} {body : Result} (h : s.configured = true) : withInstance s body = body := by
  simp [withInstance, h]

/-- Step 3 of R272 with a role: STATE without an instance or in the other role, or the body runs. -/
theorem withRole_cases {d : Bool} {s : State} {body r : Result} (h : withRole d s body = r) :
    ((s.configured = false ∨ s.isDecoder ≠ d) ∧ r = raise .state s) ∨
      (s.configured = true ∧ s.isDecoder = d ∧ r = body) := by
  rcases withInstance_cases h with ⟨hc, h⟩ | ⟨hc, h⟩
  · exact .inl ⟨.inl hc, h⟩
  · by_cases hd : s.isDecoder = d
    · exact .inr ⟨hc, hd, by rw [h, if_pos hd]⟩
    · exact .inl ⟨.inr hd, by rw [h, if_neg hd]⟩

theorem withRole_of_role {d : Bool} {s : State} {body : Result} (h : s.configured = true) (hd : s.isDecoder = d) :
    withRole d s body = body := by
  simp [withRole, withInstance, h, hd]

/-- Step 4 of R272: ILLEGAL, or the body runs. -/
theorem withRange_cases {ok : Bool} {s : State} {body r : Result} (h : withRange ok s body = r) :
    (ok = false ∧ r = raise .illegal s) ∨ (ok = true ∧ r = body) := by
  cases ok <;> simp [withRange] at h <;> simp [← h]

/-- R276: a wait, or the body runs on the draws taken. -/
theorem withDraws_cases {n : Nat} {s : State} {body : List Word → State → Result} {r : Result}
    (h : withDraws n s body = r) :
    (s.draws.length < n ∧ r = .next s) ∨
      (n ≤ s.draws.length ∧ r = body (s.draws.take n) { s with draws := s.draws.drop n }) := by
  simp only [withDraws] at h
  split at h
  · next hlt => exact .inl ⟨hlt, h.symm⟩
  · next hge => exact .inr ⟨by omega, h.symm⟩

theorem withDraws_of_offered {n : Nat} {s : State} {body : List Word → State → Result} (h : n ≤ s.draws.length) :
    withDraws n s body = body (s.draws.take n) { s with draws := s.draws.drop n } := by
  simp only [withDraws, if_neg (show ¬ s.draws.length < n by omega)]

/-! ### The engine's turn and the schedule -/

/-- Everything the engine's turn can do: hold in reset, idle, complete an illegal word, or run a command. -/
theorem engineTurn_cases {s : State} {r : Result} (h : engineTurn s = r) :
    (s.rst = true ∧ r = .next s) ∨ (s.rst = false ∧ s.pending = none ∧ r = .next s) ∨
      (∃ w e, s.rst = false ∧ s.pending = some w ∧ decode w = .error e ∧ r = raise .illegal s) ∨
      (∃ w i, s.rst = false ∧ s.pending = some w ∧ decode w = .ok i ∧ r = exec i s) := by
  simp only [engineTurn] at h
  cases hr : s.rst with
  | true => exact .inl ⟨rfl, by simpa [hr] using h.symm⟩
  | false =>
    simp only [hr, Bool.false_eq_true, if_false] at h
    cases hp : s.pending with
    | none => rw [hp] at h; exact .inr (.inl ⟨rfl, rfl, h.symm⟩)
    | some w =>
      rw [hp] at h
      cases hd : decode w with
      | ok i => simp only [hd] at h; exact .inr (.inr (.inr ⟨w, i, rfl, rfl, hd, h.symm⟩))
      | error e => simp only [hd] at h; exact .inr (.inr (.inl ⟨w, e, rfl, rfl, hd, h.symm⟩))

/-- Everything a step can do: the engine's turn, or an act from outside. -/
theorem step_cases {s : State} {r : Result} (h : step s = r) :
    (s.inbox = [] ∧ r = engineTurn s) ∨
      (∃ rest, s.inbox = .engine :: rest ∧ r = engineTurn { s with inbox := rest }) ∨
      (∃ e rest, e ≠ .engine ∧ s.inbox = e :: rest ∧ r = outsideEvent e { s with inbox := rest }) := by
  unfold step at h
  split at h
  · next hi => exact .inl ⟨hi, h.symm⟩
  · next rest hi => exact .inr (.inl ⟨rest, hi, h.symm⟩)
  · next e rest hne hi => exact .inr (.inr ⟨e, rest, fun he => hne (he ▸ rfl), hi, h.symm⟩)

/-- Everything a host transaction can do. -/
theorem hostTransaction_cases {size : BitVec 2} {s : State} {act : Nat → State × HostResp} {r : Result}
    (h : hostTransaction size s act = r) :
    (s.rst = true ∧ r = .next { s with resp := none }) ∨
      (s.rst = false ∧ sizeBytes size = none ∧ r = .next { s with resp := some busError }) ∨
      (∃ n, s.rst = false ∧ sizeBytes size = some n ∧ r = .next { (act n).1 with resp := some (act n).2 }) := by
  simp only [hostTransaction] at h
  cases hr : s.rst with
  | true => exact .inl ⟨rfl, by simpa [hr] using h.symm⟩
  | false =>
    simp only [hr, Bool.false_eq_true, if_false] at h
    cases hz : sizeBytes size with
    | none => rw [hz] at h; exact .inr (.inl ⟨rfl, rfl, h.symm⟩)
    | some n => rw [hz] at h; exact .inr (.inr ⟨n, rfl, rfl, h.symm⟩)

/-- Everything a legal register write can do (R78, R279). -/
theorem hostRegWrite_cases (s : State) (r : Reg) (v : Word) :
    (s.busy = true ∧ r = .cmd ∧
        hostRegWrite s r v = ({ s with errflags := flagSet s.errflags busyFlag }, busError)) ∨
      (s.busy = true ∧ writableBusy r = false ∧ r ≠ .cmd ∧ hostRegWrite s r v = (s, busError)) ∨
      ((s.busy = false ∨ writableBusy r = true) ∧ hostRegWrite s r v = (regWrite v s r, okResp 0)) := by
  cases hb : s.busy <;> cases hw : writableBusy r
  · exact .inr (.inr ⟨.inl rfl, by simp [hostRegWrite, hb]⟩)
  · exact .inr (.inr ⟨.inl rfl, by simp [hostRegWrite, hb]⟩)
  · by_cases hc : r = .cmd
    · exact .inl ⟨rfl, hc, by simp [hostRegWrite, hb, hc, writableBusy]⟩
    · exact .inr (.inl ⟨rfl, rfl, hc, by simp [hostRegWrite, hb, hw, hc]⟩)
  · exact .inr (.inr ⟨.inr rfl, by simp [hostRegWrite, hw]⟩)

/-- A byte poked through a window changes only the PBUF or BLK byte it names. -/
theorem pokeByte_cases (s : State) (addr : Nat) (b : Byte) :
    pokeByte s addr b = s ∨
      (∃ a, placeOf addr = .pbuf a ∧ a < pbufBytes s.params ∧ pokeByte s addr b = { s with pbuf := s.pbuf.write a b }) ∨
      (∃ a, placeOf addr = .blk a ∧ a < blockBytes s.params ∧ pokeByte s addr b = { s with blk := s.blk.write a b }) := by
  unfold pokeByte
  split
  · next a ha =>
    split
    · next hlt => exact .inr (.inl ⟨a, ha, hlt, rfl⟩)
    · exact .inl rfl
  · next a ha =>
    split
    · next hlt => exact .inr (.inr ⟨a, ha, hlt, rfl⟩)
    · exact .inl rfl
  all_goals exact .inl rfl

/-- A run of bytes poked through a window changes only PBUF and BLK. -/
theorem pokeBytes_frame (s : State) (addr : Nat) (bs : List Byte) :
    pokeBytes s addr bs = { s with pbuf := (pokeBytes s addr bs).pbuf, blk := (pokeBytes s addr bs).blk } := by
  induction bs generalizing s addr with
  | nil => rfl
  | cons b bs ih =>
    rw [pokeBytes, ih]
    rcases pokeByte_cases s addr b with h | ⟨a, _, _, h⟩ | ⟨a, _, _, h⟩ <;> rw [h]

end Sys2Proof.Machine
end

