-- ==== Sys2Proof/Laws/PerInstr.lean ====
section
/-! SUPPORT. Statements about every command as syntax, one lemma per constructor of Instr. -/

namespace Sys2Proof.Laws

open Sys2Proof

/-- R107: the command's word has its row's match under the row's mask. -/
def TableRow.Statement (i : Instr) : Prop := encode i &&& (tableRow i).2 = (tableRow i).1

theorem TableRow.nop : TableRow.Statement .nop := by unfold TableRow.Statement; decide

theorem TableRow.init : TableRow.Statement .init := by unfold TableRow.Statement; decide

theorem TableRow.gfAdd (fld : BitVec 2) (a b : Byte) : TableRow.Statement (.gfAdd fld a b) := by
  unfold TableRow.Statement encode encodeF tableRow
  ext i hi
  simp only [BitVec.getElem_and, BitVec.getElem_append]
  interval_cases i <;> simp

theorem TableRow.gfMul (fld : BitVec 2) (a b : Byte) : TableRow.Statement (.gfMul fld a b) := by
  unfold TableRow.Statement encode encodeF tableRow
  ext i hi
  simp only [BitVec.getElem_and, BitVec.getElem_append]
  interval_cases i <;> simp

theorem TableRow.gfInv (fld : BitVec 2) (a : Byte) : TableRow.Statement (.gfInv fld a) := by
  unfold TableRow.Statement encode encodeF tableRow
  ext i hi
  simp only [BitVec.getElem_and, BitVec.getElem_append]
  interval_cases i <;> simp

theorem TableRow.gfAxpy (coeff dst src : Byte) : TableRow.Statement (.gfAxpy coeff dst src) := by
  unfold TableRow.Statement encode encodeX tableRow
  ext i hi
  simp only [BitVec.getElem_and, BitVec.getElem_append]
  interval_cases i <;> simp

theorem TableRow.genDense : TableRow.Statement .genDense := by unfold TableRow.Statement; decide

theorem TableRow.genSparse : TableRow.Statement .genSparse := by unfold TableRow.Statement; decide

theorem TableRow.encWrite : TableRow.Statement .encWrite := by unfold TableRow.Statement; decide

theorem TableRow.encSetdens (imm : BitVec 16) : TableRow.Statement (.encSetdens imm) := by
  unfold TableRow.Statement encode encodeI tableRow
  ext i hi
  simp only [BitVec.getElem_and, BitVec.getElem_append]
  interval_cases i <;> simp

theorem TableRow.decRead : TableRow.Statement .decRead := by unfold TableRow.Statement; decide

end Sys2Proof.Laws
end

