-- ==== Sys2Proof/Laws/Vectors.lean ====
section
/-! SUPPORT. Lengths and entries of the vectors and byte lists that the commands compute. -/

namespace Sys2Proof.Machine

open Sys2Proof

@[simp] theorem length_unitVec (k i : Nat) : (unitVec k i).length = k := by simp [unitVec]

theorem getD_unitVec (k i c : Nat) (h : c < k) : (unitVec k i).getD c 0#8 = if c = i then 1#8 else 0#8 := by
  simp [unitVec, List.getD, h]

@[simp] theorem length_scaleVec (p : Params) (F : Field) (c : Byte) (v : List Byte) :
    (scaleVec p F c v).length = v.length := by simp [scaleVec]

@[simp] theorem length_scaleData (p : Params) (F : Field) (c : Byte) (d : List Byte) :
    (scaleData p F c d).length = d.length := by simp [scaleData]

@[simp] theorem length_xorVec (u v : List Byte) : (xorVec u v).length = min u.length v.length := by simp [xorVec]

theorem getD_scaleVec (p : Params) (F : Field) (c : Byte) (v : List Byte) (i : Nat) (h : i < v.length) :
    (scaleVec p F c v).getD i 0#8 = mulF p F c (v.getD i 0#8) := by simp [scaleVec, List.getD, h]

theorem getD_scaleData (p : Params) (F : Field) (c : Byte) (d : List Byte) (i : Nat) (h : i < d.length) :
    (scaleData p F c d).getD i 0#8 = mulb p F c (d.getD i 0#8) := by simp [scaleData, List.getD, h]

theorem getD_xorVec (u v : List Byte) (i : Nat) (hu : i < u.length) (hv : i < v.length) :
    (xorVec u v).getD i 0#8 = u.getD i 0#8 ^^^ v.getD i 0#8 := by simp [xorVec, addF, List.getD, hu, hv]

@[simp] theorem length_rowVec (rows : Memory) (k r : Nat) : (rowVec rows k r).length = k := by simp [rowVec]

@[simp] theorem length_symData (blk : Memory) (S r : Nat) : (symData blk S r).length = S := by simp [symData]

@[simp] theorem length_dense (F : Field) (rs : List Word) : (dense F rs).length = rs.length := by simp [dense]

@[simp] theorem length_sparseAttempt (F : Field) (d n : Nat) (s : Word) : (sparseAttempt F d n s).length = n := by
  induction n generalizing s with
  | zero => rfl
  | succ n ih => simp [sparseAttempt, ih]

@[simp] theorem length_expandFrom (F : Field) (d k seed n : Nat) (s : Word) :
    (expandFrom F d k seed n s).length = k := by
  induction n generalizing s with
  | zero => simp [expandFrom]
  | succ n ih => simp only [expandFrom]; split <;> simp [ih]

@[simp] theorem length_expand (p : Params) (seed : Word) (d k : Nat) (F : Field) : (expand p seed d k F).length = k := by
  simp [expand]

@[simp] theorem length_unpackDense (F : Field) (h : List Byte) (k : Nat) : (unpackDense F h k).length = k := by
  simp [unpackDense]

@[simp] theorem length_codedBody (p : Params) (F : Field) (S : Nat) (v : List Byte) (blk : Memory) :
    (codedBody p F S v blk).length = S := by simp [codedBody]

@[simp] theorem length_sparseHeader (F : Field) (seed : Word) (d : BitVec 16) : (sparseHeader F seed d).length = 8 := rfl

theorem length_denseHeader (F : Field) (v : List Byte) {H : Nat} (h : 2 ≤ H) : (denseHeader F v H).length = H := by
  simp [denseHeader]; omega

theorem length_sysHeader (F : Field) (i : Nat) {H : Nat} (h : 3 ≤ H) : (sysHeader F i H).length = H := by
  simp [sysHeader]; omega

/-- A parsed vector has k entries. -/
theorem length_parseVector {p : Params} {F : Field} {fmt : BitVec 2} {k : Nat} {h v : List Byte}
    (hp : parseVector p F fmt k h = some v) : v.length = k := by
  unfold parseVector at hp
  split at hp
  · simp at hp
  · split at hp
    · split at hp <;> simp at hp
      simp [← hp]
    · split at hp
      · split at hp <;> simp at hp
        simp [← hp]
      · split at hp
        · split at hp
          · simp at hp
          · split at hp <;> simp at hp
            simp [← hp]
        · simp at hp

theorem length_eliminateWith {p : Params} {F : Field} {k S : Nat} {piv : BitVec 256} {m : Held} {x : Scratch} (j : Nat)
    (hv : x.v.length = k) (hd : x.d.length = S) :
    (eliminateWith p F k S piv m x j).v.length = k ∧ (eliminateWith p F k S piv m x j).d.length = S := by
  simp only [eliminateWith]
  split <;> simp [hv, hd]

/-- Forward elimination keeps the row's lengths. -/
theorem length_eliminate {p : Params} {F : Field} {k S : Nat} {piv : BitVec 256} {m : Held} {x : Scratch}
    (hv : x.v.length = k) (hd : x.d.length = S) :
    (eliminate p F k S piv m x).v.length = k ∧ (eliminate p F k S piv m x).d.length = S := by
  have : ∀ (l : List Nat) (x : Scratch), x.v.length = k → x.d.length = S →
      (l.foldl (eliminateWith p F k S piv m) x).v.length = k ∧ (l.foldl (eliminateWith p F k S piv m) x).d.length = S := by
    intro l
    induction l with
    | nil => exact fun x hv hd => ⟨hv, hd⟩
    | cons j l ih =>
      intro x hv hd
      have h := length_eliminateWith (p := p) (F := F) (piv := piv) (m := m) j hv hd
      exact ih _ h.1 h.2
  exact this _ x hv hd

/-- The row that DEC.READ reduces has k elements and S bytes. -/
theorem length_reducedRow {s : State} {v : List Byte} (hv : v.length = s.k) :
    (reducedRow v s).v.length = s.k ∧ (reducedRow v s).d.length = s.symSize :=
  length_eliminate hv (by simp [loadScratch])

/-- A nonzero vector has its first nonzero entry inside. -/
theorem leading_lt {v : List Byte} (h : nonzero v = true) : leading v < v.length := by
  simpa [nonzero, leading, List.findIdx_lt_length, List.any_eq_true] using h

/-- GF.AXPY keeps the canonical form of BLK. -/
theorem wf_axpy {m : Memory} (hw : m.wf = true) (p : Params) (F : Field) (S : Nat) (coeff : Byte) (dst src : Nat) :
    (axpy p F S coeff dst src m).wf = true := by
  have : ∀ (l : List Nat) (m : Memory), m.wf = true → (l.foldl (axpyByte p F S coeff dst src) m).wf = true := by
    intro l
    induction l with
    | nil => exact fun m hm => hm
    | cons t l ih => exact fun m hm => ih _ (Memory.wf_write hm _ _)
  exact this _ m hw

/-- Back-substitution keeps the canonical form of ROWS and BLK. -/
theorem wf_backSubst {m : Held} (hr : m.rows.wf = true) (hb : m.blk.wf = true) (p : Params) (F : Field) (k S : Nat)
    (piv : BitVec 256) (pcol : Nat) (x : Scratch) :
    (backSubst p F k S piv pcol x m).rows.wf = true ∧ (backSubst p F k S piv pcol x m).blk.wf = true := by
  have : ∀ (l : List Nat) (m : Held), m.rows.wf = true → m.blk.wf = true →
      (l.foldl (backSubstRow p F k S piv pcol x) m).rows.wf = true
        ∧ (l.foldl (backSubstRow p F k S piv pcol x) m).blk.wf = true := by
    intro l
    induction l with
    | nil => exact fun m hr hb => ⟨hr, hb⟩
    | cons r l ih =>
      intro m hr hb
      simp only [List.foldl_cons]
      apply ih
      · simp only [backSubstRow]; split
        · exact Memory.wf_writeRun hr _ _
        · exact hr
      · simp only [backSubstRow]; split
        · exact Memory.wf_writeRun hb _ _
        · exact hb
  exact this _ m hr hb

end Sys2Proof.Machine
end

