-- ==== Sys2Proof/Tests/Slice0.lean ====
section
/-! SUPPORT. The model's own tests: the WellFormed smoke tests, every constructor's word written out from spec/30_encoding, one-step
tests on small states with the expected results of spec/95_test_vectors, and one witness for the hypotheses of every obligation. -/

namespace Sys2Proof.Tests

open Sys2Proof Sys2Proof.Machine

-- The kernel evaluates these theorems one after another, which keeps the number of Lean's threads small.
set_option Elab.async false

/-! ### Small states -/

/-- State.reset with an instance that INIT builds from a field code, a format code, a role (true = decoder), k, S and D. -/
def inst (fld fmt : BitVec 2) (dec : Bool) (k S d : Nat) : State :=
  configure { State.reset with
    cfg0 := packCfg fld fmt dec, cfgSymbols := BitVec.ofNat 32 k, cfgSymsize := BitVec.ofNat 32 S,
    cfgDensity := BitVec.ofNat 32 d }

/-- The memory that holds these bytes from offset 0 on. -/
def bytes (bs : List Byte) : Memory := Memory.writeRun [] 0 bs

/-- What a next state holds in a field; none for a stop. -/
def holds {α : Type} (r : Result) (f : State → α) : Option α :=
  match r with
  | .next t => some (f t)
  | .fault _ => none
  | .refused _ => none

theorem next_of_holds {α : Type} {r : Result} {f : State → α} {x : α} (h : holds r f = some x) :
    ∃ t, r = .next t ∧ f t = x := by
  cases r with
  | next t => exact ⟨t, rfl, by simpa [holds] using h⟩
  | fault e => simp [holds] at h
  | refused e => simp [holds] at h

/-- The encoder of vector E1 before its first payload. -/
def encFresh : State := { inst 2#2 0#2 false 2 2 0 with blk := bytes [1, 2, 3, 4] }

/-- The same before its last systematic payload. -/
def encLast : State := { encFresh with cursor := 1 }

/-- The same in the state Coded, with its two draws offered. -/
def encCoded : State := { encFresh with cursor := 2, coded := true, draws := [0x5#32, 0xA7#32] }

/-- The encoder of vector E3 in the state Coded, with its draw offered. -/
def encSparse : State :=
  { inst 2#2 1#2 false 4 1 0x8000 with
    blk := bytes [1, 2, 3, 4], cursor := 4, coded := true, draws := [1#32] }

/-- The decoder of vectors D1-D14 with a payload of six bytes in PBUF. -/
def decWith (payload : List Byte) : State := { inst 2#2 0#2 true 3 1 0 with plen := 6, pbuf := bytes payload }

/-- The rows of the decoder after D1. -/
def rows1 : Memory := bytes [1, 2, 3]
/-- The rows of the decoder after D2. -/
def rows2 : Memory := Memory.writeRun (bytes [1, 0, 1]) 256 [0, 1, 1]
/-- The unit rows of the decoder after D4. -/
def rows3 : Memory := Memory.writeRun (Memory.writeRun (bytes [1, 0, 0]) 256 [0, 1, 0]) 512 [0, 0, 1]

/-- The decoder after D1, with a payload. -/
def dec1 (payload : List Byte) : State :=
  { decWith payload with rank := 1, piv := 1, rows := rows1, blk := bytes [0x10] }

/-- The decoder after D2, with a payload. -/
def dec2 (payload : List Byte) : State :=
  { decWith payload with rank := 2, piv := 3, rows := rows2, blk := bytes [0x50, 0x20] }

/-- The decoder after D4, complete, with a payload. -/
def dec3 (payload : List Byte) : State :=
  { decWith payload with rank := 3, piv := 7, rows := rows3, blk := bytes [0x10, 0x60, 0x40] }

/-- The block of D1-D5. -/
def block : Memory := bytes [0x10, 0x60, 0x40]

/-- The state with a command word pending and the engine's turn next. -/
def pendingWith (w : Word) (s : State) : State := { accept w s with inbox := [.engine] }

/-- The draws of a reset that lists one byte in each memory, and one outside BLK. -/
def someDraws : PowerOn :=
  { blk := [(0, 1), (65536, 2)], pbuf := [(0, 3)], rows := [(0, 4)], scrV := [5], scrD := [6], abandoned := none }

/-! ### WellFormed -/

theorem test_wellFormed_refuses_gfAdd_code3 : (Instr.gfAdd 3#2 1#8 2#8).wellFormed = false := by decide
theorem test_wellFormed_refuses_gfMul_code3 : (Instr.gfMul 3#2 1#8 2#8).wellFormed = false := by decide
theorem test_wellFormed_refuses_gfInv_code3 : (Instr.gfInv 3#2 0#8).wellFormed = false := by decide
theorem test_wellFormed_admits_gfMul_code2 : (Instr.gfMul 2#2 0xFF#8 0xFF#8).wellFormed = true := by decide

/-! ### Decoding: one word per constructor, written out field by field from R102-R107 -/

theorem test_decode_nop : decodeTableWord 32 0b00000000_000000000000000000000000 = some .nop := by decide
theorem test_decode_init : decodeTableWord 32 0b00000001_000000000000000000000000 = some .init := by decide
theorem test_decode_gfAdd :
    decodeTableWord 32 0b00010000_000000_01_00001001_00000011 = some (.gfAdd 1#2 0x09#8 0x03#8) := by decide
theorem test_decode_gfMul :
    decodeTableWord 32 0b00010001_000000_10_01010011_11001010 = some (.gfMul 2#2 0x53#8 0xCA#8) := by decide
theorem test_decode_gfInv :
    decodeTableWord 32 0b00010010_000000_10_01010011_00000000 = some (.gfInv 2#2 0x53#8) := by decide
theorem test_decode_gfAxpy :
    decodeTableWord 32 0b00010011_00000010_00000000_00000001 = some (.gfAxpy 0x02#8 0x00#8 0x01#8) := by decide
theorem test_decode_genDense : decodeTableWord 32 0b00100000_000000000000000000000000 = some .genDense := by decide
theorem test_decode_genSparse : decodeTableWord 32 0b00100001_000000000000000000000000 = some .genSparse := by decide
theorem test_decode_encWrite : decodeTableWord 32 0b00110000_000000000000000000000000 = some .encWrite := by decide
theorem test_decode_encSetdens :
    decodeTableWord 32 0b00110001_00000000_0100000000000000 = some (.encSetdens 0x4000#16) := by decide
theorem test_decode_decRead : decodeTableWord 32 0b01000000_000000000000000000000000 = some .decRead := by decide

/-- 95 section 2.2: bit 18 set, B ≠ 0, FLD = 3 with A = 0. -/
theorem test_decode_refuses :
    decode 0x11040000#32 = .error .reservedBits ∧ decode 0x12025301#32 = .error .reservedBits
      ∧ decode 0x12030000#32 = .error .fieldCodeThree := by decide

/-! ### One step of each command, expected results from spec/95_test_vectors -/

/-- C1. -/
theorem test_nop : holds (step (State.reset.withFetchWord 32 0)) (fun t => t.status) = some 0x002#32 := by
  decide +kernel

/-- C5, the largest configuration. -/
theorem test_init_largest :
    holds (exec .init { State.reset with cfg0 := 0x002, cfgSymbols := 64, cfgSymsize := 1024 })
      (fun t => (t.status, t.hsize, t.psize)) = some (0x006#32, 66#32, 1090#32) := by decide +kernel

/-- C13. -/
theorem test_init_failure :
    holds (exec .init { encFresh with cfgSymbols := 0 }) (fun t => (t.status, t.hsize, t.errflags)) =
      some (0x1002#32, 0#32, 0x2#32) := by decide +kernel

/-- 2.2: gf.add gf256, 0x53, 0xCA, and ILLEGAL for an element out of range. -/
theorem test_gfAdd :
    holds (exec (.gfAdd 2#2 0x53#8 0xCA#8) State.reset) (fun t => t.result) = some 0x99#32
      ∧ holds (exec (.gfAdd 1#2 0x10#8 0x01#8) State.reset) (fun t => (t.status, t.result)) = some (0x4002#32, 0#32) := by
  decide +kernel

/-- 2.2: rows of the product tables of GF(2^8) and GF(2^4). -/
theorem test_gfMul :
    holds (exec (.gfMul 2#2 0x53#8 0xCA#8) State.reset) (fun t => t.result) = some 0x8F#32
      ∧ holds (exec (.gfMul 1#2 0x7#8 0xB#8) State.reset) (fun t => t.result) = some 0x4#32 := by decide +kernel

/-- 2.2: two inverses. -/
theorem test_gfInv :
    holds (exec (.gfInv 2#2 0x53#8) State.reset) (fun t => t.result) = some 0x8C#32
      ∧ holds (exec (.gfInv 1#2 0x2#8) State.reset) (fun t => t.result) = some 0x9#32 := by decide +kernel

/-- 2.2: DIV_ZERO, and the range before the zero test. -/
theorem test_gfInv_errors :
    holds (exec (.gfInv 2#2 0#8) State.reset) (fun t => t.status) = some 0x3002#32
      ∧ holds (exec (.gfInv 1#2 0x10#8) State.reset) (fun t => t.status) = some 0x4002#32 := by decide +kernel

/-- A1. -/
theorem test_gfAxpy :
    holds (exec (.gfAxpy 2#8 0#8 1#8)
        { inst 2#2 0#2 false 2 4 0 with blk := bytes [0x00, 0x11, 0x80, 0xFF, 0x01, 0x80, 0x80, 0x8E] })
      (fun t => t.blk.readRun 0 8) = some [0x02, 0x0C, 0x9D, 0xFE, 0x01, 0x80, 0x80, 0x8E] := by decide +kernel

/-- A3: DST = SRC. -/
theorem test_gfAxpy_itself :
    holds (exec (.gfAxpy 3#8 0#8 0#8) { inst 1#2 0#2 false 1 1 0 with blk := bytes [0x9F] })
      (fun t => t.blk.readRun 0 1) = some [0x1D] := by decide +kernel

/-- 2.3: GF(2^4), k = 3. -/
theorem test_genDense :
    holds (exec .genDense { inst 1#2 0#2 true 3 1 0 with draws := [0x16#32, 0xAB#32, 0xFFFFFFF7#32, 9#32] })
      (fun t => (t.cvec.readRun 0 4, t.draws)) = some ([0x6, 0xB, 0x7, 0], [9#32]) := by decide +kernel

/-- 2.4: seed 1, D = 0x4000, k = 8, GF(2^8); and the zero density's fallback. -/
theorem test_genSparse :
    holds (exec .genSparse { inst 2#2 1#2 false 8 1 0x4000 with genSeed := 1 }) (fun t => t.cvec.readRun 0 8) =
        some [0xE7, 0x00, 0xF7, 0x00, 0x4A, 0x8D, 0x00, 0x15]
      ∧ holds (exec .genSparse { inst 2#2 1#2 false 3 1 0 with genSeed := 5 }) (fun t => t.cvec.readRun 0 3) =
        some [0, 0, 1] := by decide +kernel

/-- E1: the last systematic payload and the coded one. -/
theorem test_encWrite_dense :
    holds (exec .encWrite encLast) (fun t => (t.pbuf.readRun 0 6, t.status)) =
        some ([0x00, 0x02, 0x01, 0x00, 0x03, 0x04], 0x016#32)
      ∧ holds (exec .encWrite encCoded) (fun t => (t.pbuf.readRun 0 6, t.plen)) =
        some ([0x01, 0x02, 0x05, 0xA7, 0xF1, 0xAC], 6#32) := by decide +kernel

/-- E3's coded payload. -/
theorem test_encWrite_sparse :
    holds (exec .encWrite encSparse) (fun t => (t.pbuf.readRun 0 9, t.seedLast, t.cvec.readRun 0 4)) =
      some ([0x02, 0x02, 0x00, 0x00, 0x00, 0x01, 0x80, 0x00, 0x52], 1#32, [0xE7, 0x29, 0xF7, 0xF1]) := by
  decide +kernel

/-- 2.5: ENC.SETDENS, valid and not. -/
theorem test_encSetdens :
    holds (exec (.encSetdens 0x8000#16) encFresh) (fun t => t.density) = some 0x8000#32
      ∧ holds (exec (.encSetdens 0x8001#16) encFresh) (fun t => (t.density, t.status)) = some (0#32, 0x1006#32) := by
  decide +kernel

/-- D2: a pivot and back-substitution. -/
theorem test_decRead_innovative :
    holds (exec .decRead (dec1 [1, 2, 0, 1, 1, 0x20]))
      (fun t => (t.rows.readRun 0 3, t.rows.readRun 256 3, t.blk.readRun 0 3, t.rank, t.status)) =
      some ([1, 0, 1], [0, 1, 1], [0x50, 0x20, 0], 2#32, 0x10E#32) := by decide +kernel

/-- D3, a dependent read; D13, PLEN = 5. -/
theorem test_decRead_dependent_and_framing :
    holds (exec .decRead (dec2 [1, 2, 1, 3, 2, 0x30])) (fun t => (t.rank, t.status, t.blk)) =
        some (2#32, 0x20E#32, bytes [0x50, 0x20])
      ∧ holds (exec .decRead { dec2 [1, 2, 1, 3, 2, 0x30] with plen := 5 }) (fun t => (t.status, t.errflags)) =
        some (0x200E#32, 0x4#32) := by decide +kernel

/-! ### Host port and assembler -/

/-- M1, M3, M6, M12. -/
theorem test_hostRead :
    hostRead State.reset 0x000 4 = okResp 0x4B524331#32 ∧ hostRead State.reset 0x008 4 = okResp 0xFF13011D#32
      ∧ hostRead State.reset 0x1100 4 = busError ∧ hostRead State.reset 0x1000001 2 = busError := by decide +kernel

/-- M10, M11. -/
theorem test_hostWrite :
    hostRead (hostWrite State.reset 0x1000000 4 0x44332211#32).1 0x1000000 1 = okResp 0x11#32
      ∧ hostRead (hostWrite State.reset 0x1000000 4 0x44332211#32).1 0x1000002 2 = okResp 0x4433#32 := by
  decide +kernel

/-- X8. -/
theorem test_busy_violation :
    hostWrite (accept 0#32 State.reset) 0x10 4 0#32 =
      ({ accept 0#32 State.reset with errflags := 0x40#32 }, busError) := by decide +kernel

/-- 2.5: enc.setdens.f 0.5; R112: gf.sub and axpy.xor. -/
theorem test_assemble :
    assemble (.encSetdensF 1 2) = some 0x31004000#32 ∧ assemble (.gfSub .gf16 9 3) = some 0x10010903#32
      ∧ assemble (.axpyXor 0 1) = some 0x13010001#32 ∧ assemble (.gfAdd .gf16 256 0) = none := by decide

/-- R114's lines as text, and refusals of R111 and R112. -/
theorem test_assembleText :
    assembleText "gf.mul gf256, 0x53, 0xCA ; product".toList = some 0x110253CA#32
      ∧ assembleText "gf.axpy 0, 0x02, 1".toList = some 0x13020001#32
      ∧ assembleText "enc.setdens.f 0.5".toList = some 0x31004000#32
      ∧ assembleText "gf.add gf8, 1, 1".toList = none ∧ assembleText "enc.setdens.f 1.5".toList = none := by
  decide +kernel

/-- Lines of P1 and P3, and the W16 of R305. -/
theorem test_readHostLine :
    readHostLine "W32 BLK+4, 0x8E808001".toList = some (.w32 0x1000004 0x8E808001)
      ∧ (readHostLine "W16 PBUF+2, 0xA705".toList).bind HostLine.transaction = some (.write 0x20002#25 1#2 0xA705#32)
      ∧ readHostLine "R32 ERRFLAGS -> e                   ; e".toList = some (.r32 0x18 ['e'])
      ∧ (readHostLine "CMD dec.read".toList).bind HostLine.transaction = some (.write 0x10#25 2#2 0x40000000#32)
      ∧ readHostLine "WAIT".toList = some .wait := by decide +kernel

/-- D27: a transaction of size code 3 is a bus error without effect, also a write to CMD while BUSY. -/
theorem test_wrong_width :
    holds (step { accept 0#32 State.reset with inbox := [.write 0x10#25 3#2 5#32] }) (fun t => (t.resp, t.errflags, t.pending)) =
      some (some busError, 0#32, some 0#32) := by decide +kernel

/-- The program of a run, with a line of comment. -/
def nopProgram : Option (List HostLine) :=
  readProgram ["; a fresh unit".toList, "CMD nop ; 0x00000000".toList, "R32 STATUS -> st".toList]

/-- R310 and C1: the run is not over while its CMD is pending; R113 names what R32 reads. -/
theorem test_run :
    ((nopProgram.map (HostRun.start Config.defaults someDraws)).bind (HostRun.through [.host, .engine])).map HostRun.isOver =
        some false
      ∧ ((nopProgram.map (HostRun.start Config.defaults someDraws)).bind (HostRun.through [.host, .engine, .host])).map
        (fun r => (r.isOver, r.named)) = some (true, [(['s', 't'], 0x002#32)]) := by decide +kernel

/-! ### The invariant and the row form of the witness states -/

theorem inv_of {s : State} (h : (paramsLegal s.params && canonical s && bounded s && reservedZero s
      && (!s.configured || activeOk s) && (!s.configured || s.isDecoder || encoderOk s)
      && (!s.configured || !s.isDecoder || decoderOk s) && (s.configured || emptyOk s) && busyOk s) = true) : Inv s := by
  simp only [Bool.and_eq_true, Bool.or_eq_true, Bool.not_eq_true'] at h
  obtain ⟨⟨⟨⟨⟨⟨⟨⟨h1, h2⟩, h3⟩, h4⟩, h5⟩, h6⟩, h7⟩, h8⟩, h9⟩ := h
  exact ⟨h1, h2, h3, h4, fun hc => by simpa [hc] using h5, fun hc hd => by simpa [hc, hd] using h6,
    fun hc hd => by simpa [hc, hd] using h7, fun hc => by simpa [hc] using h8, h9⟩

/-- Entry c of a held row r is as the row form wants it. -/
def entryOk (s : State) (r c : Nat) : Bool :=
  s.field.holds (entry s r c) && (!decide (c < r) || entry s r c == 0#8)
    && (!pivHeld s.piv c || c == r || entry s r c == 0#8)

/-- Row r, where held, is as the row form wants it. -/
def rowOk (s : State) (r : Nat) : Bool :=
  !pivHeld s.piv r || (entry s r r == 1#8 && (List.range s.k).all (entryOk s r))

theorem rref_of {s : State} (h : (s.rank.toNat == pivCount s.piv s.k && (List.range s.k).all (rowOk s)) = true) :
    Rref s := by
  simp only [Bool.and_eq_true, beq_iff_eq, List.all_eq_true, List.mem_range] at h
  have hrow : ∀ r, held s r → entry s r r = 1#8 ∧ ∀ c, c < s.k → entryOk s r c = true := by
    intro r hh
    simpa [rowOk, hh.2] using h.2 r hh.1
  have hent : ∀ r c, held s r → c < s.k → s.field.holds (entry s r c) = true ∧ (c < r → entry s r c = 0#8)
      ∧ (pivHeld s.piv c = true → c ≠ r → entry s r c = 0#8) := by
    intro r c hh hc
    have he := (hrow r hh).2 c hc
    simp only [entryOk, Bool.and_eq_true, Bool.or_eq_true, Bool.not_eq_true', decide_eq_false_iff_not, beq_iff_eq] at he
    refine ⟨he.1.1, fun hlt => he.1.2.resolve_left (by omega), fun hp hne => ?_⟩
    rcases he.2 with (h' | h') | h'
    · rw [hp] at h'; cases h'
    · exact absurd h' hne
    · exact h'
  exact ⟨h.1, fun r hh => (hrow r hh).1, fun r c hh hc => (hent r c hh (hc.trans hh.1)).2.1 hc,
    fun r r' hh hh' hne => (hent r r' hh hh'.1).2.2 hh'.2 hne, fun r c hh hc => (hent r c hh hc).1⟩

/-- Row r, where held, is true of the block. -/
def rowTrue (m : Memory) (s : State) (r : Nat) : Bool :=
  !pivHeld s.piv r || (List.range s.symSize).all (fun t =>
    s.blk.read (symAt s.symSize r + t) == combination s.params s.field s.symSize (rowVec s.rows s.k r) m t)

theorem trueOf_of {m : Memory} {s : State} (h : (List.range s.k).all (rowTrue m s) = true) : trueOf m s := by
  intro r t hh ht
  have h1 := List.all_eq_true.mp h r (List.mem_range.mpr hh.1)
  simp only [rowTrue, hh.2, Bool.not_true, Bool.false_or, List.all_eq_true, List.mem_range, beq_iff_eq] at h1
  exact h1 t ht

theorem inv_encFresh : Inv encFresh := inv_of (by decide +kernel)
theorem inv_encLast : Inv encLast := inv_of (by decide +kernel)
theorem inv_encCoded : Inv encCoded := inv_of (by decide +kernel)
theorem inv_encSparse : Inv encSparse := inv_of (by decide +kernel)
theorem inv_dec1 : Inv (dec1 [1, 2, 0, 1, 1, 0x20]) := inv_of (by decide +kernel)
theorem inv_dec2 : Inv (dec2 [1, 2, 0, 0, 1, 0x40]) := inv_of (by decide +kernel)
theorem inv_dec2_dependent : Inv (dec2 [1, 2, 1, 3, 2, 0x30]) := inv_of (by decide +kernel)
theorem inv_dec3 : Inv (dec3 []) := inv_of (by decide +kernel)
theorem rref_dec1 : Rref (dec1 [1, 2, 0, 1, 1, 0x20]) := rref_of (by decide +kernel)
theorem rref_dec2 : Rref (dec2 [1, 2, 0, 0, 1, 0x40]) := rref_of (by decide +kernel)
theorem rref_dec2_dependent : Rref (dec2 [1, 2, 1, 3, 2, 0x30]) := rref_of (by decide +kernel)
theorem rref_dec3 : Rref (dec3 []) := rref_of (by decide +kernel)

/-! ### Witnesses: for each obligation with hypotheses, a state and operands that meet them -/

theorem witness_DecodeEncodeAgree : (Instr.gfInv 2#2 0xFF#8).wellFormed = true := by decide

theorem witness_EncodeDecodeAgree : decode 0x13FFFFFF#32 = .ok (.gfAxpy 0xFF#8 0xFF#8 0xFF#8) := by decide

/-- One word on each side of both clauses, at the neighbours of the eleven opcodes and of FLD = 3. -/
theorem witness_DecoderRejectsTheThreeKinds :
    decode 0x02000000#32 = .error .reservedOpcode ∧ decode 0x14000000#32 = .error .reservedOpcode
      ∧ decode 0x1003FFFF#32 = .error .fieldCodeThree ∧ decode 0x12030000#32 = .error .fieldCodeThree
      ∧ decode 0x12030001#32 = .error .reservedBits ∧ decode 0x1007FFFF#32 = .error .reservedBits := by decide

/-- d = 0 and d = 1, the ends of the density's range. -/
theorem witness_AssembledLinesAreCommands :
    assemble (.encSetdensF 0 1) = some 0x31000000#32 ∧ assemble (.encSetdensF 1 1) = some 0x31008000#32
      ∧ assembleText "axpy.xor 0, 255".toList = some 0x130100FF#32 := by decide +kernel

/-- A command in the engine's turn and with an empty schedule; an idle turn both ways; an offered word. -/
theorem witness_StepRunsPendingCommand :
    (engineHas 0#32 [] (pendingWith 0#32 State.reset) ∧ decode 0#32 = .ok .nop)
      ∧ ((accept 0#32 State.reset).inbox = [] ∧ (accept 0#32 State.reset).rst = false
        ∧ (accept 0#32 State.reset).pending = some 0#32)
      ∧ (encFresh.rst = false ∧ encFresh.pending = none ∧ encFresh.inbox = []
        ∧ ({ encFresh with inbox := [.engine] } : State).inbox = [.engine])
      ∧ ({ encFresh with inbox := [.offer 7#32] } : State).inbox = [.offer 7#32] := by
  refine ⟨⟨⟨rfl, rfl, rfl⟩, by decide⟩, ⟨rfl, rfl, rfl⟩, by decide +kernel, rfl⟩

theorem witness_IllegalWordsCompleteWithIllegal :
    engineHas 0x50000000#32 [] (pendingWith 0x50000000#32 State.reset)
      ∧ ∀ i : Instr, i.wellFormed = true → encode i ≠ 0x50000000#32 := by
  refine ⟨⟨rfl, rfl, rfl⟩, fun i _ h => ?_⟩
  cases i with
  | gfAdd f a b => have h' := Laws.TableRow.gfAdd f a b; simp [Laws.TableRow.Statement, h, tableRow] at h'
  | gfMul f a b => have h' := Laws.TableRow.gfMul f a b; simp [Laws.TableRow.Statement, h, tableRow] at h'
  | gfInv f a => have h' := Laws.TableRow.gfInv f a; simp [Laws.TableRow.Statement, h, tableRow] at h'
  | gfAxpy c d s => have h' := Laws.TableRow.gfAxpy c d s; simp [Laws.TableRow.Statement, h, tableRow] at h'
  | encSetdens m => have h' := Laws.TableRow.encSetdens m; simp [Laws.TableRow.Statement, h, tableRow] at h'
  | nop => exact absurd h (by decide)
  | init => exact absurd h (by decide)
  | genDense => exact absurd h (by decide)
  | genSparse => exact absurd h (by decide)
  | encWrite => exact absurd h (by decide)
  | decRead => exact absurd h (by decide)

/-- An edge with rst = 1; then, while rst = 1, a transaction of the undefined size code, the engine's turn and the falling of rst. -/
theorem witness_ResetLeavesTheResetTable :
    holds (step { encCoded with inbox := [.rstRise someDraws] }) (fun t => (t.blk, t.rst, t.draws)) =
        some ([(0, 1)], true, [0x5#32, 0xA7#32])
      ∧ ({ encCoded with rst := true, inbox := [.read 0#25 3#2] } : State).rst = true
      ∧ ({ encCoded with rst := true, inbox := [.write 0#25 3#2 0#32] } : State).inbox = [.write 0#25 3#2 0#32]
      ∧ ({ encCoded with rst := true, inbox := [.engine] } : State).inbox = [.engine]
      ∧ ({ encCoded with rst := true, inbox := [] } : State).inbox = []
      ∧ ({ encCoded with rst := true, inbox := [.rstFall] } : State).inbox = [.rstFall] := by decide +kernel

theorem witness_ResetSatisfiesInv : paramsLegal encCoded.params = true ∧ someDraws.blk ≠ [] := by decide +kernel

theorem witness_StepKeepsInv :
    Inv (accept 0x30000000#32 encLast) ∧ ∃ t, step (accept 0x30000000#32 encLast) = .next t ∧ t.coded = true :=
  ⟨inv_of (by decide +kernel), next_of_holds (by decide +kernel)⟩

theorem witness_StepKeepsRref :
    Inv (accept 0x40000000#32 (dec1 [1, 2, 0, 1, 1, 0x20])) ∧ Rref (accept 0x40000000#32 (dec1 [1, 2, 0, 1, 1, 0x20]))
      ∧ ∃ t, step (accept 0x40000000#32 (dec1 [1, 2, 0, 1, 1, 0x20])) = .next t ∧ t.rank = 2#32 :=
  ⟨inv_of (by decide +kernel), rref_of (by decide +kernel), next_of_holds (by decide +kernel)⟩

theorem witness_ParamsNeverChange : ∃ t, step (accept 0x01000000#32 encLast) = .next t ∧ t.done = true :=
  next_of_holds (by decide +kernel)

/-- Both ways: INIT with a new k, and a reset. -/
theorem witness_InstanceChangesOnlyByInitOrReset :
    (∃ t, step (accept 0x01000000#32 { encFresh with cfgSymbols := 3 }) = .next t ∧ t.asymbols = 3#32)
      ∧ (∃ t, step (pendingWith 0x01000000#32 { encFresh with cfgSymbols := 3 }) = .next t ∧ t.asymbols = 3#32)
      ∧ encFresh.asymbols = 2#32
      ∧ (∃ t, step { encFresh with inbox := [.rstRise someDraws] } = .next t ∧ t.configured = false)
      ∧ encFresh.configured = true :=
  ⟨next_of_holds (by decide +kernel), next_of_holds (by decide +kernel), by decide +kernel,
    next_of_holds (by decide +kernel), by decide +kernel⟩

/-- A wait, a completion without error and one with an error. -/
theorem witness_CommandsCompleteOrWait :
    drawsTaken { encCoded with draws := [5#32] } .encWrite = 2
      ∧ (∃ t, exec .encWrite encCoded = .next t ∧ t.err = .none)
      ∧ (∃ t, exec .decRead encCoded = .next t ∧ t.err = .state) :=
  ⟨by decide +kernel, next_of_holds (by decide +kernel), next_of_holds (by decide +kernel)⟩

theorem witness_CommandsWaitForDraws :
    instanceOk { encCoded with draws := [5#32] } .encWrite
      ∧ ({ encCoded with draws := [5#32] } : State).draws.length < drawsTaken { encCoded with draws := [5#32] } .encWrite := by
  refine ⟨fun _ => ⟨by decide +kernel, fun d h => ?_⟩, by decide +kernel⟩
  have hd : d = false := by simpa [needsRole, eq_comm] using h
  rw [hd]; decide +kernel

/-- A failed command and a failed INIT. -/
theorem witness_ErrorsCommitNothing :
    encFresh.err = .none ∧ (∃ t, exec .decRead encFresh = .next t ∧ t.err = .state)
      ∧ (∃ t, exec .init { encFresh with cfgSymbols := 0 } = .next t ∧ t.err = .config) :=
  ⟨by decide +kernel, next_of_holds (by decide +kernel), next_of_holds (by decide +kernel)⟩

/-- No instance; a destination equal to k; every operand at its largest value. -/
theorem witness_CommonChecksDecideTheError :
    ¬ instanceOk State.reset (.gfAxpy 0xFF#8 0xFF#8 0xFF#8)
      ∧ instanceOk encFresh (.gfAxpy 1#8 2#8 0#8) ∧ ¬ operandsOk encFresh (.gfAxpy 1#8 2#8 0#8)
      ∧ instanceOk encFresh (.gfAxpy 0xFF#8 1#8 1#8) ∧ operandsOk encFresh (.gfAxpy 0xFF#8 1#8 1#8)
      ∧ encFresh.err = .none := by
  refine ⟨fun h => ?_, fun _ => ⟨by decide +kernel, fun d h => by simp [needsRole] at h⟩, fun h => ?_,
    fun _ => ⟨by decide +kernel, fun d h => by simp [needsRole] at h⟩, ?_, by decide +kernel⟩
  · exact absurd (h rfl).1 (by decide)
  · exact absurd h.2.1 (by decide +kernel)
  · exact ⟨by decide +kernel, by decide +kernel, by decide +kernel⟩

theorem witness_CommandsWriteOnlyTheirParts : ∃ t, exec .genDense encCoded = .next t ∧ t.draws = [] :=
  next_of_holds (by decide +kernel)

/-- Both memories and a vector written, PSIZE and k*S at most the memories' sizes. -/
theorem witness_CommandsStayInTheirRanges :
    Inv encCoded ∧ (∃ t, exec .encWrite encCoded = .next t ∧ t.plen = 6#32)
      ∧ (∃ t, exec .init encCoded = .next t ∧ t.coded = false) :=
  ⟨inv_encCoded, next_of_holds (by decide +kernel), next_of_holds (by decide +kernel)⟩

/-- A rank that stays, one that rises, and INIT. -/
theorem witness_RankRisesOnlyByInnovativeReads :
    Inv (dec1 [1, 2, 0, 1, 1, 0x20]) ∧ Rref (dec1 [1, 2, 0, 1, 1, 0x20])
      ∧ (∃ t, exec .nop (dec1 [1, 2, 0, 1, 1, 0x20]) = .next t ∧ t.rank = 1#32)
      ∧ (∃ t, exec .decRead (dec1 [1, 2, 0, 1, 1, 0x20]) = .next t ∧ t.rank = 2#32)
      ∧ (∃ t, exec .init (dec1 [1, 2, 0, 1, 1, 0x20]) = .next t ∧ t.rank = 0#32) :=
  ⟨inv_dec1, rref_dec1, next_of_holds (by decide +kernel), next_of_holds (by decide +kernel),
    next_of_holds (by decide +kernel)⟩

/-- The words 1 and 0x00FFFFFF, and the fresh unit's step. -/
theorem witness_NopCompletes :
    ((1#32).toNat < 2 ^ 24 ∧ 1#32 ≠ 0#32) ∧ ((0x00FFFFFF#32).toNat < 2 ^ 24 ∧ 0x00FFFFFF#32 ≠ 0#32)
      ∧ ∃ t, step (State.reset.withFetchWord 32 0) = .next t ∧ t.done = true :=
  ⟨by decide, by decide, next_of_holds (by decide +kernel)⟩

/-- State.reset with configuration registers. -/
def cfgRegs (c0 k S d : Word) : State :=
  { State.reset with cfg0 := c0, cfgSymbols := k, cfgSymsize := S, cfgDensity := d }

/-- INIT's requirements as one decidable check. -/
def validCfg (s : State) : Bool :=
  cfgField s.cfg0 != 3#2 && (cfgFormat s.cfg0 == 0#2 || cfgFormat s.cfg0 == 1#2) && decide (1 ≤ low16 s.cfgSymbols)
    && decide (low16 s.cfgSymbols ≤ s.params.kMax) && decide (1 ≤ low16 s.cfgSymsize)
    && decide (low16 s.cfgSymsize ≤ s.params.sMax) && decide (low16 s.cfgDensity ≤ 0x8000)

/-- The smallest and the largest configuration, in every field and both formats. -/
theorem witness_InitBuildsInstance :
    validCfg (cfgRegs 0x000 1 1 0) = true ∧ validCfg (cfgRegs 0x101 64 1024 0x8000) = true
      ∧ validCfg (cfgRegs 0x002 64 1024 0x8000) = true ∧ validCfg (cfgRegs 0x112 64 1024 0x8000) = true := by
  decide +kernel

/-- Each clause at the first value outside its range. -/
theorem witness_InitFailureLeavesNoInstance :
    cfgField (cfgRegs 0x003 1 1 0).cfg0 = 3#2 ∧ 1 < (cfgFormat (cfgRegs 0x020 1 1 0).cfg0).toNat
      ∧ low16 (cfgRegs 0 0 1 0).cfgSymbols = 0 ∧ Config.defaults.kMax < low16 (cfgRegs 0 65 1 0).cfgSymbols
      ∧ low16 (cfgRegs 0 1 0 0).cfgSymsize = 0 ∧ Config.defaults.sMax < low16 (cfgRegs 0 1 1025 0).cfgSymsize
      ∧ 0x8000 < low16 (cfgRegs 0 1 1 0x8001).cfgDensity := by decide +kernel

theorem paramsLegal_reset : paramsLegal State.reset.params = true := by decide +kernel

theorem witness_GfAddResult :
    2#2 ≠ 3#2 ∧ (0xFF#8).toNat < (Field.ofCode 2#2).size ∧ (0xF#8).toNat < (Field.ofCode 1#2).size
      ∧ (1#8).toNat < (Field.ofCode 0#2).size := by decide

/-- The largest element of each field. -/
theorem witness_GfMulIsProductModuloPolynomial :
    paramsLegal State.reset.params = true ∧ 2#2 ≠ 3#2 ∧ (0xFF#8).toNat < (Field.ofCode 2#2).size
      ∧ (0xF#8).toNat < (Field.ofCode 1#2).size ∧ (1#8).toNat < (Field.ofCode 0#2).size := by decide +kernel

theorem witness_GfInvIsTheUniqueInverse :
    paramsLegal State.reset.params = true ∧ 2#2 ≠ 3#2 ∧ (0xFF#8).toNat < (Field.ofCode 2#2).size ∧ 0xFF#8 ≠ 0#8
      ∧ (mulF State.reset.params .gf256 0xFF#8 0xFD#8 = 1#8 ∧ (0xFD#8).toNat < (Field.ofCode 2#2).size) := by
  decide +kernel

theorem witness_GfInvOfZeroFails : 0#2 ≠ 3#2 ∧ 2#2 ≠ 3#2 := by decide

theorem witness_FieldLaws :
    paramsLegal Config.defaults = true ∧ (0xFF#8).toNat < Field.gf256.size ∧ (0xF#8).toNat < Field.gf16.size
      ∧ (1#8).toNat < Field.gf2.size := by decide +kernel

/-- The largest coefficient and the largest symbol index. -/
theorem witness_GfAxpyResult :
    encFresh.configured = true ∧ (0xFF#8).toNat < encFresh.field.size ∧ (0#8).toNat < encFresh.k
      ∧ (1#8).toNat < encFresh.k := by decide +kernel

theorem witness_GfAxpyOnItself :
    Inv encFresh ∧ encFresh.configured = true ∧ (0xFF#8).toNat < encFresh.field.size
      ∧ (1#8).toNat < encFresh.field.size ∧ (0#8).toNat < encFresh.field.size ∧ (1#8).toNat < encFresh.k :=
  ⟨inv_encFresh, by decide +kernel⟩

/-- d₁ = 0, s₁ = 2, d₂ = 1, s₂ = 3 with k = 4; and both into one symbol. -/
theorem witness_GfAxpyCommutes :
    encSparse.configured = true ∧ (0xFF#8).toNat < encSparse.field.size ∧ (0#8).toNat < encSparse.k
      ∧ (1#8).toNat < encSparse.k ∧ (2#8).toNat < encSparse.k ∧ (3#8).toNat < encSparse.k
      ∧ 0#8 ≠ 3#8 ∧ 1#8 ≠ 2#8 := by decide +kernel

/-- Exactly k draws offered. -/
theorem witness_GenDenseResult : encCoded.configured = true ∧ encCoded.k ≤ encCoded.draws.length := by decide +kernel

theorem witness_GenSparseResult : encSparse.configured = true := by decide +kernel

theorem witness_ExpandGivesNonzeroVector : (1 : Nat) ≤ 1 ∧ expand Config.defaults 5 0 1 .gf256 = [1#8] := by
  decide +kernel

/-- Vector 2.4: at density 0x0800 the attempts of seeds 0 to 11 are zero and seed 12 is not; at density 0 every attempt is zero. The
last of the eight entries of the traced attempt of seed 1. -/
theorem witness_ExpandRerollsBySeedIncrement :
    (7 < 8 ∧ (sparseAttempt .gf256 0x4000 8 1#32).getD 7 0#8 = 0x15#8)
      ∧ (List.range 12).all (fun j => !nonzero (sparseAttempt .gf256 0x800 2 (BitVec.ofNat 32 j))) = true
      ∧ nonzero (sparseAttempt .gf256 0x800 2 12#32) = true
      ∧ (List.range 256).all (fun j => !nonzero (sparseAttempt .gf256 0 2 (7#32 + BitVec.ofNat 32 j))) = true := by
  decide +kernel

theorem witness_ZeroDensityGivesUnitVector : encCoded.configured = true ∧ encCoded.density = 0#32 := by decide +kernel

/-- The last systematic payload. -/
theorem witness_EncWriteSystematicEmitsSymbol :
    Inv encLast ∧ encLast.configured = true ∧ encLast.isDecoder = false ∧ encLast.coded = false :=
  ⟨inv_encLast, by decide +kernel⟩

theorem witness_EncWriteDenseEmitsCombination :
    Inv encCoded ∧ encCoded.configured = true ∧ encCoded.isDecoder = false ∧ encCoded.coded = true
      ∧ encCoded.format = 0#2 ∧ encCoded.k ≤ encCoded.draws.length :=
  ⟨inv_encCoded, by decide +kernel⟩

theorem witness_EncWriteSparseEmitsCombination :
    Inv encSparse ∧ encSparse.configured = true ∧ encSparse.isDecoder = false ∧ encSparse.coded = true
      ∧ encSparse.format = 1#2 ∧ encSparse.draws = [1#32] :=
  ⟨inv_encSparse, by decide +kernel⟩

/-- The three forms of ENC.WRITE. -/
theorem witness_EncodedPayloadParsesBackAndIsTrue :
    Inv encLast ∧ Inv encCoded ∧ Inv encSparse
      ∧ (encLast.configured = true ∧ encLast.isDecoder = false ∧ drawsTaken encLast .encWrite = 0)
      ∧ (encCoded.configured = true ∧ encCoded.isDecoder = false
        ∧ drawsTaken encCoded .encWrite = encCoded.draws.length)
      ∧ (encSparse.configured = true ∧ encSparse.isDecoder = false
        ∧ drawsTaken encSparse .encWrite = encSparse.draws.length) :=
  ⟨inv_encLast, inv_encCoded, inv_encSparse, by decide +kernel⟩

/-- The largest valid density code and the smallest invalid one. -/
theorem witness_EncSetdensResult :
    encFresh.configured = true ∧ encFresh.isDecoder = false ∧ (0x8000#16).toNat ≤ 0x8000
      ∧ 0x8000 < (0x8001#16).toNat := by decide +kernel

theorem witness_CompleteDecoderIgnoresReads :
    (dec3 []).configured = true ∧ (dec3 []).isDecoder = true ∧ (dec3 []).rank = (dec3 []).asymbols := by decide +kernel

/-- A fresh decoder of the sparse format, k = 4 and S = 1, with a payload of nine bytes. -/
def sparseDec (payload : List Byte) : State := { inst 2#2 1#2 true 4 1 0 with plen := 9, pbuf := bytes payload }

/-- A decoder with PLEN = 5. -/
def shortDec : State := { dec2 [1, 2, 0, 0, 1, 0x40] with plen := 5 }

/-- D9-D13 and D16, each clause at its boundary. -/
theorem witness_MalformedPayloadsFailWithFraming :
    malformed shortDec ∧ malformed (dec2 [1, 1, 1, 0, 0, 0x77]) ∧ malformed (dec2 [2, 2, 0, 0, 0, 1])
      ∧ malformed (dec2 [3, 2, 0, 0, 0, 0x77]) ∧ malformed (dec2 [0, 2, 3, 0, 0, 0x77])
      ∧ malformed (sparseDec [2, 2, 0, 0, 0, 1, 0x80, 1, 0x52]) := by
  refine ⟨?_, ?_, ?_, ?_, ?_, ?_⟩ <;> unfold malformed <;> decide +kernel

/-- The neighbours of D9 and D16 that no clause names, D4, and the other hypotheses. -/
theorem witness_WellFormedPayloadsParse :
    Inv (dec2 [1, 2, 0, 0, 1, 0x40]) ∧ ¬ malformed (sparseDec [2, 2, 0, 0, 0, 1, 0x80, 0, 0x52])
      ∧ ¬ malformed (dec2 [0, 2, 2, 0, 0, 0x77]) ∧ ¬ malformed (dec2 [1, 2, 0, 0, 1, 0x40])
      ∧ (dec2 []).configured = true ∧ (dec2 []).isDecoder = true ∧ (dec2 []).rank ≠ (dec2 []).asymbols := by
  refine ⟨inv_dec2, ?_, ?_, ?_, by decide +kernel⟩ <;> unfold malformed <;> decide +kernel

theorem witness_DependentPayloadIsAbsorbed :
    Inv (dec2 [1, 2, 1, 3, 2, 0x30]) ∧ Rref (dec2 [1, 2, 1, 3, 2, 0x30])
      ∧ ((dec2 [1, 2, 1, 3, 2, 0x30]).configured = true ∧ (dec2 [1, 2, 1, 3, 2, 0x30]).isDecoder = true
        ∧ (dec2 [1, 2, 1, 3, 2, 0x30]).rank ≠ (dec2 [1, 2, 1, 3, 2, 0x30]).asymbols
        ∧ (dec2 [1, 2, 1, 3, 2, 0x30]).plen = (dec2 [1, 2, 1, 3, 2, 0x30]).psize
        ∧ (dec2 [1, 2, 1, 3, 2, 0x30]).parsed = some [1, 3, 2]
        ∧ ∀ c, c < (dec2 [1, 2, 1, 3, 2, 0x30]).k → residueVec (dec2 [1, 2, 1, 3, 2, 0x30]) [1, 3, 2] c = 0#8) :=
  ⟨inv_dec2_dependent, rref_dec2_dependent, by decide +kernel⟩

/-- p = 2, the last column, with two held rows. -/
theorem witness_InnovativePayloadBecomesPivotRow :
    Inv (dec2 [1, 2, 0, 0, 1, 0x40]) ∧ Rref (dec2 [1, 2, 0, 0, 1, 0x40])
      ∧ ((dec2 [1, 2, 0, 0, 1, 0x40]).configured = true ∧ (dec2 [1, 2, 0, 0, 1, 0x40]).isDecoder = true
        ∧ (dec2 [1, 2, 0, 0, 1, 0x40]).rank ≠ (dec2 [1, 2, 0, 0, 1, 0x40]).asymbols
        ∧ (dec2 [1, 2, 0, 0, 1, 0x40]).plen = (dec2 [1, 2, 0, 0, 1, 0x40]).psize
        ∧ (dec2 [1, 2, 0, 0, 1, 0x40]).parsed = some [0, 0, 1] ∧ 2 < (dec2 [1, 2, 0, 0, 1, 0x40]).k
        ∧ (∀ c, c < 2 → residueVec (dec2 [1, 2, 0, 0, 1, 0x40]) [0, 0, 1] c = 0#8)
        ∧ residueVec (dec2 [1, 2, 0, 0, 1, 0x40]) [0, 0, 1] 2 ≠ 0#8) :=
  ⟨inv_dec2, rref_dec2, by decide +kernel⟩

/-- D4 completes the decoder with the block of D1-D5. -/
theorem witness_DecodingKeepsTheBlockTrue :
    Inv (dec2 [1, 2, 0, 0, 1, 0x40]) ∧ Rref (dec2 [1, 2, 0, 0, 1, 0x40])
      ∧ trueOf block (dec2 [1, 2, 0, 0, 1, 0x40])
      ∧ payloadTrueOf block [0, 0, 1] (dec2 [1, 2, 0, 0, 1, 0x40])
      ∧ ((dec2 [1, 2, 0, 0, 1, 0x40]).configured = true ∧ (dec2 [1, 2, 0, 0, 1, 0x40]).isDecoder = true
        ∧ (dec2 [1, 2, 0, 0, 1, 0x40]).plen = (dec2 [1, 2, 0, 0, 1, 0x40]).psize
        ∧ (dec2 [1, 2, 0, 0, 1, 0x40]).parsed = some [0, 0, 1])
      ∧ ∃ t, exec .decRead (dec2 [1, 2, 0, 0, 1, 0x40]) = .next t ∧ t.complete = true :=
  ⟨inv_dec2, rref_dec2, trueOf_of (by decide +kernel), by unfold payloadTrueOf; decide +kernel, by decide +kernel,
    next_of_holds (by decide +kernel)⟩

/-- The step that runs D4 is no write, no GF.AXPY and reads a true payload. -/
theorem witness_DecodingKeepsTheBlockTrue_step :
    Inv (accept 0x40000000#32 (dec2 [1, 2, 0, 0, 1, 0x40])) ∧ Rref (accept 0x40000000#32 (dec2 [1, 2, 0, 0, 1, 0x40]))
      ∧ trueOf block (accept 0x40000000#32 (dec2 [1, 2, 0, 0, 1, 0x40]))
      ∧ (∃ t, step (accept 0x40000000#32 (dec2 [1, 2, 0, 0, 1, 0x40])) = .next t ∧ t.complete = true)
      ∧ (accept 0x40000000#32 (dec2 [1, 2, 0, 0, 1, 0x40])).inbox = []
      ∧ (∀ coeff dst src,
        (accept 0x40000000#32 (dec2 [1, 2, 0, 0, 1, 0x40])).pending ≠ some (encode (.gfAxpy coeff dst src)))
      ∧ ∀ v, (accept 0x40000000#32 (dec2 [1, 2, 0, 0, 1, 0x40])).parsed = some v →
        payloadTrueOf block v (accept 0x40000000#32 (dec2 [1, 2, 0, 0, 1, 0x40])) := by
  refine ⟨inv_of (by decide +kernel), rref_of (by decide +kernel), trueOf_of (by decide +kernel),
    next_of_holds (by decide +kernel), by decide +kernel, fun c d r h => ?_, fun v h => ?_⟩
  · have h' := Laws.TableRow.gfAxpy c d r
    have he : encode (.gfAxpy c d r) = 0x40000000#32 := (Option.some.inj h).symm
    simp [Laws.TableRow.Statement, he, tableRow] at h'
  · have hv : (accept 0x40000000#32 (dec2 [1, 2, 0, 0, 1, 0x40])).parsed = some [0, 0, 1] := by decide +kernel
    rw [Option.some.inj (h.symm.trans hv)]
    unfold payloadTrueOf
    decide +kernel

/-- A write below the BLK window, at its last address. -/
theorem witness_DecodingKeepsTheBlockTrue_write : (0xFFFFFF#25).toNat < 0x1000000 := by decide

theorem witness_CompleteDecoderHasIdentityRows :
    Inv (dec3 []) ∧ Rref (dec3 []) ∧ (dec3 []).complete = true ∧ 2 < (dec3 []).k :=
  ⟨inv_dec3, rref_dec3, by decide +kernel⟩

theorem witness_HostTransactionsAnswer :
    ({ State.reset with inbox := [.read 0#25 2#2] } : State).inbox = [.read 0#25 2#2]
      ∧ ({ State.reset with inbox := [.write 0#25 2#2 0#32] } : State).inbox = [.write 0#25 2#2 0#32]
      ∧ State.reset.rst = false ∧ sizeBytes 2#2 = some 4 := by decide +kernel

/-- The run of a program's last action, a CMD write, from a state in which a command may be pending. -/
def lastCmd (s : State) : HostRun := { rest := [.cmd .decRead], named := [], unit := s }

/-- Size code 3 both ways; an action that is answered with a bus error; WAIT while busy and while not; a run that is over. -/
theorem witness_WrongSizesAreBusErrorsAndRunsGoOn :
    State.reset.rst = false ∧ ({ State.reset with inbox := [.read 0#25 3#2] } : State).inbox = [.read 0#25 3#2]
      ∧ ({ State.reset with inbox := [.write 0#25 3#2 0#32] } : State).inbox = [.write 0#25 3#2 0#32]
      ∧ (lastCmd (accept 0#32 encFresh)).unit.rst = false
      ∧ (HostLine.cmd .decRead).transaction = some (.write 0x10#25 2#2 0x40000000#32)
      ∧ ((lastCmd (accept 0#32 encFresh)).turn .host).map (fun u => (u.rest, u.outcome)) = some ([], none)
      ∧ (accept 0#32 encFresh).busy = true ∧ encFresh.busy = false ∧ encFresh.pending = none := by decide +kernel

/-- The last bytes of PBUF (of 1090) and of BLK (of 65536), a write that straddles the end of PBUF, and the last words of both windows. -/
theorem witness_WindowsReadBackWrites :
    State.reset.pending = none ∧ 0x20440 % 2 = 0 ∧ 0x20440 + 2 = 0x20000 + pbufBytes State.reset.params
      ∧ 0x20440 % 4 = 0 ∧ 0x100FFFC % 4 = 0 ∧ 0x100FFFC + 4 = 0x1000000 + blockBytes State.reset.params
      ∧ 0x20000 + pbufBytes State.reset.params ≤ 0x3FFFC ∧ 0x3FFFC % 4 = 0 ∧ 0x3FFFC < 0x40000
      ∧ 0x1000000 + blockBytes State.reset.params ≤ 0x1FFFFFC ∧ 0x1FFFFFC % 4 = 0 ∧ 0x1FFFFFC < 0x2000000 := by
  decide +kernel

theorem witness_HostWritesWhileBusy :
    (accept 0#32 encFresh).pending = some 0#32 ∧ 0x1C ∉ [0x0C, 0x10, 0x14, 0x18] := by decide +kernel

theorem witness_HostReadsWhileBusy : (accept 0#32 encFresh).pending = some 0#32 ∧ 0xFFC < 0x1000 ∧ 0xFFC % 4 = 0 := by
  decide +kernel

theorem witness_CommandAcceptance : State.reset.pending = none := rfl

theorem witness_IrqFollowsDoneAndEnable :
    (accept 0#32 { State.reset with ctrl := 1 }).pending ≠ none
      ∧ (∃ t, exec .nop (accept 0#32 { State.reset with ctrl := 1 }) = .next t ∧ (t.pending, t.irq) = (none, true))
      ∧ (2#32).getLsbD 1 = true :=
  ⟨by decide +kernel, next_of_holds (by decide +kernel), by decide⟩

/-- The first and the last register of the list, and the last offset of the register page. -/
theorem witness_RegistersReadBackWrites :
    State.reset.pending = none
      ∧ (0x0C, 0x1#32) ∈ [(0x0C, 0x1#32), (0x20, 0x133#32), (0x24, 0xFFFF#32), (0x28, 0xFFFF#32),
          (0x2C, 0xFFFF#32), (0x30, 0xFFFFFFFF#32), ((0x34 : Nat), 0xFFFFFFFF#32)]
      ∧ (0x34, 0xFFFFFFFF#32) ∈ [(0x0C, 0x1#32), (0x20, 0x133#32), (0x24, 0xFFFF#32), (0x28, 0xFFFF#32),
          (0x2C, 0xFFFF#32), (0x30, 0xFFFFFFFF#32), ((0x34 : Nat), 0xFFFFFFFF#32)]
      ∧ 0xFFC < 0x1000 ∧ 0xFFC % 4 = 0 := by decide

/-- The first and the last read-only offset, and a reserved one. -/
theorem witness_ReadOnlyRegistersIgnoreWrites :
    State.reset.pending = none ∧ 0x000 % 4 = 0 ∧ 0x09C % 4 = 0 ∧ 0xFFC < 0x1000 ∧ 0xFFC % 4 = 0
      ∧ 0xFFC ∉ [0x0C, 0x10, 0x14, 0x18, 0x20, 0x24, 0x28, 0x2C, 0x30, 0x34] := by decide

theorem witness_ReadOnlyWindowsIgnoreWrites :
    State.reset.pending = none ∧ 0x10FC % 4 = 0 ∧ 0x10FC < 0x1100 ∧ 0x1FFFC % 4 = 0 ∧ 0x1FFFC < 0x20000 := by decide

/-- Each clause at the ends of its range. -/
theorem witness_RefusedAccessesAreBusErrors :
    (0xFFC < 0x1000 ∧ ¬((2 : Nat) = 4 ∧ 0xFFC % 4 = 0)) ∧ (0x0FFE < 0x1000 ∧ ¬((4 : Nat) = 4 ∧ 0x0FFE % 4 = 0))
      ∧ 0x1100 < 0x10000 ∧ 0xFFFF < 0x10000 ∧ 0x40000 < 0x1000000 ∧ 0xFFFFFF < 0x1000000
      ∧ (0x1000 ≤ 0x1001 ∧ 0x1001 % 2 ≠ 0) := by decide

/-- The ends of the CVEC, ROWS, PBUF and BLK windows, and the last row and column inside the memory and the first outside. -/
theorem witness_WindowReadsShowTheMemories :
    (dec2 []).pending = none ∧ 0x10FC % 4 = 0 ∧ 0x10FC < 0x1100 ∧ 0x10000 % 4 = 0 ∧ 0x3FFFC % 4 = 0 ∧ 0x3FFFC < 0x40000
      ∧ 0x1FFFFFC % 4 = 0 ∧ 0x1FFFFFC < 0x2000000 ∧ 63 < (dec2 []).params.kMax ∧ (dec2 []).params.kMax = 64 := by
  decide +kernel

/-- Legal parameters, the last PIV bit, and the ends of the two reserved ranges. -/
theorem witness_RegisterFieldsReadInTheirPlaces :
    paramsLegal State.reset.params = true ∧ 7 < 8 ∧ 31 < 32 ∧ 0x05C % 4 = 0 ∧ 0x07C % 4 = 0 ∧ 0x07C < 0x080
      ∧ 0x0A0 % 4 = 0 ∧ 0xFFC % 4 = 0 ∧ 0xFFC < 0x1000 :=
  ⟨paramsLegal_reset, by decide⟩

end Sys2Proof.Tests
end

namespace Sys2Proof.Machine

open Sys2Proof

/-! ## Proofs for the scope (spec/00_scope): the step, the host transaction, the build parameters

### What a step is, by the head of the schedule (log 4, log 5) -/

theorem step_of_nil {s : State} (h : s.inbox = []) : step s = engineTurn s := by
  simp [step, h]

theorem step_of_engine {s : State} {rest : List Event} (h : s.inbox = .engine :: rest) :
    step s = engineTurn { s with inbox := rest } := by
  simp [step, h]

theorem step_of_outside {s : State} {e : Event} {rest : List Event} (h : s.inbox = e :: rest) (he : e ≠ .engine) :
    step s = outsideEvent e { s with inbox := rest } := by
  cases e with
  | engine => exact absurd rfl he
  | read addr size => simp [step, h]
  | write addr size data => simp [step, h]
  | offer w => simp [step, h]
  | rstRise d => simp [step, h]
  | rstFall => simp [step, h]

/-! ### What the engine's turn is, by the pending word (R272, R291) -/

theorem engineTurn_of_reset {s : State} (hr : s.rst = true) : engineTurn s = .next s := by
  simp [engineTurn, hr]

theorem engineTurn_of_idle {s : State} (hp : s.pending = none) : engineTurn s = .next s := by
  simp [engineTurn, hp]

theorem engineTurn_of_decoded {s : State} {w : Word} {i : Instr} (hr : s.rst = false) (hp : s.pending = some w)
    (hd : decode w = .ok i) : engineTurn s = exec i s := by
  simp [engineTurn, hr, hp, hd]

theorem engineTurn_of_rejected {s : State} {w : Word} {e : Reject} (hr : s.rst = false) (hp : s.pending = some w)
    (hd : decode w = .error e) : engineTurn s = raise .illegal s := by
  simp [engineTurn, hr, hp, hd]

/-! ### What a host transaction is, by its size code (R7, D27) -/

theorem hostTransaction_of_reset {size : BitVec 2} {s : State} (act : Nat → State × HostResp) (hr : s.rst = true) :
    hostTransaction size s act = .next { s with resp := none } := by
  simp [hostTransaction, hr]

theorem hostTransaction_of_size {size : BitVec 2} {s : State} {n : Nat} (act : Nat → State × HostResp)
    (hr : s.rst = false) (hz : sizeBytes size = some n) :
    hostTransaction size s act = .next { (act n).1 with resp := some (act n).2 } := by
  simp [hostTransaction, hr, hz]

theorem hostTransaction_of_wrong_size {size : BitVec 2} {s : State} (act : Nat → State × HostResp)
    (hr : s.rst = false) (hz : sizeBytes size = none) :
    hostTransaction size s act = .next { s with resp := some busError } := by
  simp [hostTransaction, hr, hz]

/-- A read's answer does not depend on the schedule. -/
theorem hostRead_inbox (s : State) (rest : List Event) (addr n : Nat) :
    hostRead { s with inbox := rest } addr n = hostRead s addr n := by
  have hreg : ∀ r, regRead { s with inbox := rest } r = regRead s r := by intro r; cases r <;> rfl
  simp only [hostRead, hreg]
  rfl

/-! ### Every next state of a result -/

/-- A next state that `r` gives has the property `P`. -/
def Yields (P : State → Prop) (r : Result) : Prop := ∀ t, r = .next t → P t

section

variable {P : State → Prop} {s : State}

@[simp] theorem yields_next {t : State} : Yields P (.next t) ↔ P t := by
  simp [Yields]

@[simp] theorem yields_raise {e : ErrCode} : Yields P (raise e s) ↔ P (complete e s) := yields_next

@[simp] theorem yields_finish : Yields P (finish s) ↔ P (complete .none s) := yields_next

theorem yields_withInstance {body : Result} (herr : s.configured = false → P (complete .state s))
    (hbody : s.configured = true → Yields P body) : Yields P (withInstance s body) := by
  obtain ⟨hc, h⟩ | ⟨hc, h⟩ := withInstance_cases (s := s) (body := body) rfl
  · rw [h]; exact yields_raise.2 (herr hc)
  · rw [h]; exact hbody hc

theorem yields_withRole {d : Bool} {body : Result} (herr : P (complete .state s))
    (hbody : s.configured = true → s.isDecoder = d → Yields P body) : Yields P (withRole d s body) := by
  obtain ⟨_, h⟩ | ⟨hc, hd, h⟩ := withRole_cases (d := d) (s := s) (body := body) rfl
  · rw [h]; exact yields_raise.2 herr
  · rw [h]; exact hbody hc hd

theorem yields_withRange {ok : Bool} {body : Result} (herr : ok = false → P (complete .illegal s))
    (hbody : ok = true → Yields P body) : Yields P (withRange ok s body) := by
  obtain ⟨hok, h⟩ | ⟨hok, h⟩ := withRange_cases (ok := ok) (s := s) (body := body) rfl
  · rw [h]; exact yields_raise.2 (herr hok)
  · rw [h]; exact hbody hok

theorem yields_withDraws {n : Nat} {body : List Word → State → Result} (hwait : s.draws.length < n → P s)
    (hbody : n ≤ s.draws.length → Yields P (body (s.draws.take n) { s with draws := s.draws.drop n })) :
    Yields P (withDraws n s body) := by
  obtain ⟨hn, h⟩ | ⟨hn, h⟩ := withDraws_cases (n := n) (s := s) (body := body) rfl
  · rw [h]; exact yields_next.2 (hwait hn)
  · rw [h]; exact hbody hn

end

/-! ### What no command changes -/

/-- `t` holds what `s` holds in the parts that are not the engine's: the build parameters, the inputs and the host port, and the
registers that only the host writes (R8, R27, R32-R36). -/
structure EngineFrame (s t : State) : Prop where
  params : t.params = s.params
  rst : t.rst = s.rst
  inbox : t.inbox = s.inbox
  resp : t.resp = s.resp
  ctrl : t.ctrl = s.ctrl
  cfg0 : t.cfg0 = s.cfg0
  cfgSymbols : t.cfgSymbols = s.cfgSymbols
  cfgSymsize : t.cfgSymsize = s.cfgSymsize
  cfgDensity : t.cfgDensity = s.cfgDensity
  genSeed : t.genSeed = s.genSeed

theorem engineFrame_refl (s : State) : EngineFrame s s := by constructor <;> rfl

theorem engineFrame_complete (e : ErrCode) (s : State) : EngineFrame s (complete e s) := by constructor <;> rfl

theorem engineFrame_complete_of {t : State} (e : ErrCode) (h : EngineFrame s t) : EngineFrame s (complete e t) where
  __ := h

theorem engineFrame_readParsed (v : List Byte) (s : State) : EngineFrame s (readParsed v s) := by
  unfold readParsed
  split <;> constructor <;> rfl

theorem execInit_engineFrame (s : State) : Yields (EngineFrame s) (execInit s) := by
  unfold execInit
  split
  · exact yields_finish.2 (by constructor <;> rfl)
  · exact yields_raise.2 (by constructor <;> rfl)

theorem execGfAdd_engineFrame (fld : BitVec 2) (a b : Byte) (s : State) :
    Yields (EngineFrame s) (execGfAdd fld a b s) :=
  yields_withRange (fun _ => engineFrame_complete _ s) fun _ => yields_finish.2 (by constructor <;> rfl)

theorem execGfMul_engineFrame (fld : BitVec 2) (a b : Byte) (s : State) :
    Yields (EngineFrame s) (execGfMul fld a b s) :=
  yields_withRange (fun _ => engineFrame_complete _ s) fun _ => yields_finish.2 (by constructor <;> rfl)

theorem execGfInv_engineFrame (fld : BitVec 2) (a : Byte) (s : State) :
    Yields (EngineFrame s) (execGfInv fld a s) := by
  refine yields_withRange (fun _ => engineFrame_complete _ s) fun _ => ?_
  split
  · exact yields_raise.2 (engineFrame_complete _ s)
  · exact yields_finish.2 (by constructor <;> rfl)

theorem execGfAxpy_engineFrame (coeff dst src : Byte) (s : State) :
    Yields (EngineFrame s) (execGfAxpy coeff dst src s) :=
  yields_withInstance (fun _ => engineFrame_complete _ s) fun _ =>
    yields_withRange (fun _ => engineFrame_complete _ s) fun _ => yields_finish.2 (by constructor <;> rfl)

theorem execGenDense_engineFrame (s : State) : Yields (EngineFrame s) (execGenDense s) :=
  yields_withInstance (fun _ => engineFrame_complete _ s) fun _ =>
    yields_withDraws (fun _ => engineFrame_refl s) fun _ => yields_finish.2 (by constructor <;> rfl)

theorem execGenSparse_engineFrame (s : State) : Yields (EngineFrame s) (execGenSparse s) :=
  yields_withInstance (fun _ => engineFrame_complete _ s) fun _ => yields_finish.2 (by constructor <;> rfl)

theorem execEncWrite_engineFrame (s : State) : Yields (EngineFrame s) (execEncWrite s) := by
  refine yields_withRole (engineFrame_complete _ s) fun _ _ => ?_
  split
  · exact yields_finish.2 (by constructor <;> rfl)
  · split
    · exact yields_withDraws (fun _ => engineFrame_refl s) fun _ => yields_finish.2 (by constructor <;> rfl)
    · exact yields_withDraws (fun _ => engineFrame_refl s) fun _ => yields_finish.2 (by constructor <;> rfl)

theorem execEncSetdens_engineFrame (imm : BitVec 16) (s : State) : Yields (EngineFrame s) (execEncSetdens imm s) := by
  refine yields_withRole (engineFrame_complete _ s) fun _ _ => ?_
  split
  · exact yields_finish.2 (by constructor <;> rfl)
  · exact yields_raise.2 (engineFrame_complete _ s)

theorem execDecRead_engineFrame (s : State) : Yields (EngineFrame s) (execDecRead s) := by
  refine yields_withRole (engineFrame_complete _ s) fun _ _ => ?_
  split
  · exact yields_finish.2 (by constructor <;> rfl)
  split
  · exact yields_raise.2 (engineFrame_complete _ s)
  split
  · exact yields_raise.2 (engineFrame_complete _ s)
  · next v _ => exact yields_finish.2 (engineFrame_complete_of _ (engineFrame_readParsed v s))

theorem exec_engineFrame (i : Instr) (s : State) : Yields (EngineFrame s) (exec i s) := by
  cases i with
  | nop => exact yields_finish.2 (engineFrame_complete _ s)
  | init => exact execInit_engineFrame s
  | gfAdd fld a b => exact execGfAdd_engineFrame fld a b s
  | gfMul fld a b => exact execGfMul_engineFrame fld a b s
  | gfInv fld a => exact execGfInv_engineFrame fld a s
  | gfAxpy coeff dst src => exact execGfAxpy_engineFrame coeff dst src s
  | genDense => exact execGenDense_engineFrame s
  | genSparse => exact execGenSparse_engineFrame s
  | encWrite => exact execEncWrite_engineFrame s
  | encSetdens imm => exact execEncSetdens_engineFrame imm s
  | decRead => exact execDecRead_engineFrame s

theorem engineTurn_engineFrame (s : State) : Yields (EngineFrame s) (engineTurn s) := by
  obtain ⟨_, h⟩ | ⟨_, _, h⟩ | ⟨_, _, _, _, _, h⟩ | ⟨_, i, _, _, _, h⟩ := engineTurn_cases (s := s) rfl
  · rw [h]; exact yields_next.2 (engineFrame_refl s)
  · rw [h]; exact yields_next.2 (engineFrame_refl s)
  · rw [h]; exact yields_raise.2 (engineFrame_complete _ s)
  · rw [h]; exact exec_engineFrame i s

/-! ### What no host write changes -/

/-- `u` differs from `s` only in the parts that a host write can reach (R23, R71, R79, R275, R279). -/
def HostFrame (s u : State) : Prop :=
  u = { s with
    pending := u.pending, done := u.done, err := u.err, errflags := u.errflags, ctrl := u.ctrl, cfg0 := u.cfg0
    cfgSymbols := u.cfgSymbols, cfgSymsize := u.cfgSymsize, cfgDensity := u.cfgDensity, genSeed := u.genSeed
    plen := u.plen, pbuf := u.pbuf, blk := u.blk }

theorem hostFrame_refl (s : State) : HostFrame s s := rfl

theorem HostFrame.params {u : State} (h : HostFrame s u) : u.params = s.params := by
  rw [show u = _ from h]

theorem regWrite_hostFrame (v : Word) (s : State) (r : Reg) : HostFrame s (regWrite v s r) := by
  cases r <;> rfl

theorem hostRegWrite_hostFrame (s : State) (r : Reg) (v : Word) : HostFrame s (hostRegWrite s r v).1 := by
  obtain ⟨_, _, h⟩ | ⟨_, _, _, h⟩ | ⟨_, h⟩ := hostRegWrite_cases s r v
  · rw [h]; rfl
  · rw [h]; exact hostFrame_refl s
  · rw [h]; exact regWrite_hostFrame v s r

theorem pokeBytes_hostFrame (s : State) (addr : Nat) (bs : List Byte) : HostFrame s (pokeBytes s addr bs) := by
  rw [pokeBytes_frame]; rfl

theorem hostWrite_hostFrame (s : State) (addr n : Nat) (v : Word) : HostFrame s (hostWrite s addr n v).1 := by
  unfold hostWrite
  split
  · split
    · exact hostRegWrite_hostFrame s _ v
    · exact hostFrame_refl s
  · exact hostFrame_refl s
  · split
    · exact pokeBytes_hostFrame s addr _
    · exact hostFrame_refl s

/-! ### The build parameters (R8) -/

theorem hostTransaction_params (size : BitVec 2) {s : State} {act : Nat → State × HostResp}
    (hact : ∀ n, (act n).1.params = s.params) :
    Yields (fun t => t.params = s.params) (hostTransaction size s act) := by
  obtain ⟨_, h⟩ | ⟨_, _, h⟩ | ⟨n, _, _, h⟩ := hostTransaction_cases (size := size) (s := s) (act := act) rfl
  · rw [h]; exact yields_next.2 rfl
  · rw [h]; exact yields_next.2 rfl
  · rw [h]; exact yields_next.2 (hact n)

theorem outsideEvent_params (e : Event) (s : State) : Yields (fun t => t.params = s.params) (outsideEvent e s) := by
  cases e with
  | read addr size => exact hostTransaction_params size fun _ => rfl
  | write addr size data => exact hostTransaction_params size fun n => (hostWrite_hostFrame s addr.toNat n data).params
  | engine => exact yields_next.2 rfl
  | offer w => exact yields_next.2 rfl
  | rstRise d => exact yields_next.2 (resetTo_params d s)
  | rstFall => exact yields_next.2 rfl

/-- Settles O12: by the three kinds of step; the engine and the host each keep the parameters in their frame. -/
theorem paramsNeverChange : Obligations.ParamsNeverChange := by
  intro s t h
  obtain ⟨_, ht⟩ | ⟨rest, _, ht⟩ | ⟨e, rest, _, _, ht⟩ := step_cases h
  · exact (engineTurn_engineFrame s t ht.symm).params
  · exact (engineTurn_engineFrame { s with inbox := rest } t ht.symm).params
  · exact outsideEvent_params e { s with inbox := rest } t ht.symm

/-- Settles O6: the head of the schedule says whose turn it is, and the pending word what the engine does in it. -/
theorem stepRunsPendingCommand : Obligations.StepRunsPendingCommand := by
  refine ⟨fun w rest s i hturn hdec => ?_, fun w s i hnil hrst hpend hdec => ?_,
    fun s rest _ hpend => ⟨fun h => ?_, fun h => ?_⟩, fun s w rest h => ?_⟩
  · obtain ⟨hinbox, hrst, hpend⟩ := hturn
    rw [step_of_engine hinbox, engineTurn_of_decoded (s := { s with inbox := rest }) hrst hpend hdec]
  · rw [step_of_nil hnil, engineTurn_of_decoded hrst hpend hdec]
  · rw [step_of_engine h, engineTurn_of_idle (s := { s with inbox := rest }) hpend]
  · rw [step_of_nil h, engineTurn_of_idle hpend]
  · rw [step_of_outside h nofun]
    rfl

/-- Settles O48: a transaction is an act from outside, and its size code gives the number of bytes. -/
theorem hostTransactionsAnswer : Obligations.HostTransactionsAnswer := by
  refine ⟨fun s addr size n rest h hrst hsize => ?_, fun s addr size data n rest h hrst hsize => ?_, rfl, rfl, rfl⟩
  · calc step s
      _ = outsideEvent (.read addr size) { s with inbox := rest } := step_of_outside h nofun
      _ = .next { s with inbox := rest, resp := some (hostRead { s with inbox := rest } addr.toNat n) } :=
        hostTransaction_of_size _ hrst hsize
      _ = .next { s with inbox := rest, resp := some (hostRead s addr.toNat n) } := by rw [hostRead_inbox]
  · rw [step_of_outside h nofun]
    exact hostTransaction_of_size _ hrst hsize

end Sys2Proof.Machine

namespace Sys2Proof.Machine

open Sys2Proof

/-! ## GF(2), GF(2^4) and GF(2^8) as fields (spec/41_field_arithmetic R150-R153)

A number stands for the polynomial over GF(2) whose coefficients are its bits (R9). The element operations of the model are then
the operations of the quotient by the reduction polynomial, which is a field of 2^fb(F) elements for every legal polynomial.

### Numbers as polynomials over GF(2) -/

section

open Polynomial

noncomputable def toPoly (n : Nat) : (ZMod 2)[X] := ∑ i ∈ Finset.range n, if n.testBit i then X ^ i else 0

theorem coeff_bitSum (b n i : Nat) :
    (∑ j ∈ Finset.range n, if b.testBit j then (X : (ZMod 2)[X]) ^ j else 0).coeff i
      = if i < n ∧ b.testBit i = true then 1 else 0 := by
  have hterm : ∀ j, (if b.testBit j then (X : (ZMod 2)[X]) ^ j else 0).coeff i
      = if i = j then (if b.testBit i then 1 else 0) else 0 := by
    intro j
    by_cases hij : i = j
    · subst hij; cases b.testBit i <;> simp
    · cases b.testBit j <;> simp [coeff_X_pow, hij]
  simp [hterm, ite_and]

@[simp] theorem coeff_toPoly (n i : Nat) : (toPoly n).coeff i = if n.testBit i then 1 else 0 := by
  rw [toPoly, coeff_bitSum]
  by_cases hi : i < n
  · simp [hi]
  · have hbit : n.testBit i = false :=
      Nat.testBit_lt_two_pow (Nat.lt_two_pow_self.trans_le (Nat.pow_le_pow_right two_pos (by omega)))
    simp [hbit]

theorem toPoly_eq_bitSum {b n : Nat} (hb : b < 2 ^ n) :
    toPoly b = ∑ j ∈ Finset.range n, if b.testBit j then X ^ j else 0 := by
  ext i
  rw [coeff_toPoly, coeff_bitSum]
  by_cases hi : i < n
  · simp [hi]
  · have hbit : b.testBit i = false :=
      Nat.testBit_lt_two_pow (hb.trans_le (Nat.pow_le_pow_right two_pos (by omega)))
    simp [hbit]

@[simp] theorem toPoly_zero : toPoly 0 = 0 := by simp [toPoly]

theorem toPoly_two_pow (i : Nat) : toPoly (2 ^ i) = X ^ i := by
  ext j
  simp [coeff_X_pow, Nat.testBit_two_pow, eq_comm]

@[simp] theorem toPoly_one : toPoly 1 = 1 := toPoly_two_pow 0

theorem toPoly_xor (a b : Nat) : toPoly (a ^^^ b) = toPoly a + toPoly b := by
  ext i
  cases ha : a.testBit i <;> cases hb : b.testBit i <;> simp [ha, hb]
  exact (CharTwo.add_self_eq_zero (1 : ZMod 2)).symm

theorem toPoly_shiftLeft (a i : Nat) : toPoly (a <<< i) = toPoly a * X ^ i := by
  ext j
  rw [coeff_mul_X_pow']
  by_cases hij : i ≤ j <;> simp [hij]

theorem toPoly_inj {a b : Nat} (h : toPoly a = toPoly b) : a = b := by
  refine Nat.eq_of_testBit_eq fun i => ?_
  have hi := congrArg (fun p => p.coeff i) h
  cases ha : a.testBit i <;> cases hb : b.testBit i <;> simp [ha, hb] at hi ⊢

theorem toPoly_eq_sub (a b : Nat) : toPoly a - toPoly b = toPoly (a ^^^ b) := by
  rw [toPoly_xor, CharTwo.sub_eq_add]

theorem degree_toPoly_lt {a n : Nat} : (toPoly a).degree < n ↔ a < 2 ^ n := by
  rw [degree_lt_iff_coeff_zero]
  constructor
  · intro h
    refine Nat.lt_pow_two_of_testBit a fun i hi => ?_
    simpa using h i hi
  · intro h i hi
    have hbit : a.testBit i = false := Nat.testBit_lt_two_pow (h.trans_le (Nat.pow_le_pow_right two_pos hi))
    simp [hbit]

theorem exists_toPoly (q : (ZMod 2)[X]) : ∃ a, toPoly a = q := by
  induction q using Polynomial.induction_on' with
  | add p q hp hq =>
    obtain ⟨a, rfl⟩ := hp
    obtain ⟨b, rfl⟩ := hq
    exact ⟨a ^^^ b, toPoly_xor a b⟩
  | monomial n c =>
    obtain rfl | rfl : c = 0 ∨ c = 1 := by revert c; decide
    · exact ⟨0, by simp⟩
    · exact ⟨2 ^ n, by rw [toPoly_two_pow, X_pow_eq_monomial]⟩

/-- A polynomial of degree n, as a number: bit n is its highest. -/
def HasDegree (P n : Nat) : Prop := P.testBit n = true ∧ P < 2 ^ (n + 1)

theorem HasDegree.degree {P n : Nat} (h : HasDegree P n) : (toPoly P).degree = n := by
  obtain ⟨hbit, hlt⟩ := h
  refine le_antisymm ((degree_le_iff_coeff_zero _ _).2 fun i hi => ?_) (le_degree_of_ne_zero (by simp [hbit]))
  have hclear : P.testBit i = false :=
    Nat.testBit_lt_two_pow (hlt.trans_le (Nat.pow_le_pow_right two_pos (by exact_mod_cast hi)))
  simp [hclear]

theorem HasDegree.natDegree {P n : Nat} (h : HasDegree P n) : (toPoly P).natDegree = n :=
  natDegree_eq_of_degree_eq_some h.degree

theorem HasDegree.monic {P n : Nat} (h : HasDegree P n) : (toPoly P).Monic := by
  rw [Monic, leadingCoeff, h.natDegree, coeff_toPoly, if_pos h.1]

theorem hasDegree_of_natDegree {a n : Nat} (hm : (toPoly a).Monic) (hn : (toPoly a).natDegree = n) : HasDegree a n := by
  refine ⟨?_, degree_toPoly_lt.1 ?_⟩
  · have hlead : (toPoly a).coeff n = 1 := hn ▸ hm
    by_contra hbit
    simp [hbit] at hlead
  · rw [degree_eq_natDegree hm.ne_zero, hn]
    exact_mod_cast n.lt_succ_self

/-! ### Reduction by a polynomial (R152) -/

/-- The element of the quotient by P that a number stands for. -/
noncomputable def quot (P a : Nat) : AdjoinRoot (toPoly P) := AdjoinRoot.mk (toPoly P) (toPoly a)

@[simp] theorem quot_zero (P : Nat) : quot P 0 = 0 := by simp [quot]

@[simp] theorem quot_one (P : Nat) : quot P 1 = 1 := by simp [quot]

theorem quot_xor (P a b : Nat) : quot P (a ^^^ b) = quot P a + quot P b := by
  simp [quot, toPoly_xor]

theorem quot_eq_zero {P a : Nat} : quot P a = 0 ↔ toPoly P ∣ toPoly a := AdjoinRoot.mk_eq_zero

@[simp] theorem quot_shiftLeft_self (P i : Nat) : quot P (P <<< i) = 0 := by
  rw [quot_eq_zero, toPoly_shiftLeft]
  exact dvd_mul_right _ _

/-- Numbers below 2^n are the representatives of the quotient by a polynomial of degree n. -/
theorem quot_injOn {P n a b : Nat} (hP : HasDegree P n) (ha : a < 2 ^ n) (hb : b < 2 ^ n) (h : quot P a = quot P b) :
    a = b := by
  have hdvd : toPoly P ∣ toPoly a - toPoly b := AdjoinRoot.mk_eq_mk.1 h
  have hdeg : (toPoly a - toPoly b).degree < (toPoly P).degree := by
    rw [toPoly_eq_sub, hP.degree]
    exact degree_toPoly_lt.2 (Nat.xor_lt_two_pow ha hb)
  exact toPoly_inj (sub_eq_zero.1 (eq_zero_of_dvd_of_degree_lt hdvd hdeg))

/-- `r` with its bit `t + n` cleared by a shift of P, which has degree n. -/
def clearBit (P n t r : Nat) : Nat := if r.testBit (t + n) then r ^^^ (P <<< t) else r

theorem clearBit_lt {P n t r : Nat} (hP : HasDegree P n) (hr : r < 2 ^ (t + n + 1)) : clearBit P n t r < 2 ^ (t + n) := by
  refine Nat.lt_pow_two_of_testBit _ fun i hi => ?_
  unfold clearBit
  obtain rfl | hlt := Nat.eq_or_lt_of_le hi
  · cases hbit : r.testBit (t + n) <;> simp [hbit, hP.1]
  · have hri : r.testBit i = false := Nat.testBit_lt_two_pow (hr.trans_le (Nat.pow_le_pow_right two_pos hlt))
    have hPi : P.testBit (i - t) = false :=
      Nat.testBit_lt_two_pow (hP.2.trans_le (Nat.pow_le_pow_right two_pos (by omega)))
    split <;> simp [hri, hPi]

@[simp] theorem quot_clearBit (P n t r : Nat) : quot P (clearBit P n t r) = quot P r := by
  unfold clearBit
  split
  · rw [quot_xor, quot_shiftLeft_self, add_zero]
  · rfl

theorem polyModFrom_spec {d dd : Nat} (hd : HasDegree d dd) (t r : Nat) (hr : r < 2 ^ (t + dd + 1)) :
    polyModFrom d dd t r < 2 ^ dd ∧ quot d (polyModFrom d dd t r) = quot d r := by
  induction t generalizing r with
  | zero =>
    have hz : polyModFrom d dd 0 r = clearBit d dd 0 r := by simp [polyModFrom, clearBit]
    rw [hz]
    exact ⟨by simpa using clearBit_lt hd hr, quot_clearBit d dd 0 r⟩
  | succ t ih =>
    have hlt : clearBit d dd (t + 1) r < 2 ^ (t + dd + 1) := by
      rw [show t + dd + 1 = t + 1 + dd by omega]
      exact clearBit_lt hd hr
    obtain ⟨hsmall, hquot⟩ := ih _ hlt
    exact ⟨hsmall, hquot.trans (quot_clearBit ..)⟩

theorem irreducible_hasDegree {n P : Nat} (h : irreducible n P = true) : HasDegree P n := by
  simp only [irreducible, Bool.and_eq_true, decide_eq_true_eq] at h
  exact h.1

theorem not_dvd_of_noFactorOfDegree {n P d dd : Nat} (h : noFactorOfDegree n P dd = true) (hP : P < 2 ^ (n + 1))
    (hd : HasDegree d dd) (hdd : dd ≤ n) : ¬ toPoly d ∣ toPoly P := by
  intro hdvd
  have hge : 2 ^ dd ≤ d := Nat.ge_two_pow_of_testBit hd.1
  have hlow : d - 2 ^ dd < 2 ^ dd := by have := hd.2; rw [Nat.pow_succ] at this; omega
  have hrem : polyModFrom d dd (n - dd) P ≠ 0 := by
    have := List.all_eq_true.1 h (d - 2 ^ dd) (List.mem_range.2 hlow)
    rwa [Nat.add_sub_cancel' hge, bne_iff_ne] at this
  obtain ⟨hsmall, hquot⟩ := polyModFrom_spec hd (n - dd) P (by rwa [Nat.sub_add_cancel hdd])
  rw [quot_eq_zero.2 hdvd, ← quot_zero d] at hquot
  exact hrem (quot_injOn hd hsmall (Nat.two_pow_pos dd) hquot)

/-- The model's check of R8 is irreducibility over GF(2). -/
theorem irreducible_toPoly {n P : Nat} (hn : 1 ≤ n) (h : irreducible n P = true) : Irreducible (toPoly P) := by
  have hP := irreducible_hasDegree h
  have hne : toPoly P ≠ 1 := fun h1 => by have := hP.natDegree; rw [h1, natDegree_one] at this; omega
  rw [hP.monic.irreducible_iff_lt_natDegree_lt hne]
  intro q hq hdeg
  obtain ⟨d, rfl⟩ := exists_toPoly q
  obtain ⟨hpos, hhalf⟩ := Finset.mem_Ioc.1 hdeg
  rw [hP.natDegree] at hhalf
  have hfactor : noFactorOfDegree n P ((toPoly d).natDegree - 1 + 1) = true := by
    simp only [irreducible, Bool.and_eq_true, List.all_eq_true, List.mem_range] at h
    exact h.2 _ (by omega)
  rw [Nat.sub_add_cancel hpos] at hfactor
  exact not_dvd_of_noFactorOfDegree hfactor hP.2 (hasDegree_of_natDegree hq rfl) (by omega)

/-! ### The product of R152 -/

theorem clmul_succ (a b n : Nat) :
    clmul a b (n + 1) = if b.testBit n then clmul a b n ^^^ (a <<< n) else clmul a b n := by
  simp [clmul, List.range_succ]

theorem toPoly_clmul {a b n : Nat} (hb : b < 2 ^ n) : toPoly (clmul a b n) = toPoly a * toPoly b := by
  have hprefix : ∀ m, toPoly (clmul a b m) = toPoly a * ∑ j ∈ Finset.range m, if b.testBit j then X ^ j else 0 := by
    intro m
    induction m with
    | zero => simp [clmul]
    | succ m ih =>
      rw [clmul_succ, Finset.sum_range_succ, mul_add, ← ih]
      split
      · rw [toPoly_xor, toPoly_shiftLeft]
      · simp
  rw [hprefix, ← toPoly_eq_bitSum hb]

theorem clmul_lt {a n : Nat} (b : Nat) (ha : a < 2 ^ n) : clmul a b n < 2 ^ (2 * n - 1) := by
  have hprefix : ∀ m ≤ n, clmul a b m < 2 ^ (2 * n - 1) := by
    intro m hm
    induction m with
    | zero => exact Nat.two_pow_pos _
    | succ m ih =>
      have hshift : a <<< m < 2 ^ (2 * n - 1) :=
        (Nat.shiftLeft_lt ha).trans_le (Nat.pow_le_pow_right two_pos (by omega))
      rw [clmul_succ]
      split
      · exact Nat.xor_lt_two_pow (ih (by omega)) hshift
      · exact ih (by omega)
  exact hprefix n le_rfl

/-- The first `m` rounds of the reduction of R152, from the top bit 2n-2 down. -/
def reduceRounds (P n r m : Nat) : Nat :=
  (List.range m).foldl
    (fun r j => if r.testBit (2 * n - 2 - j) then r ^^^ (P <<< (n - 2 - j)) else r) r

theorem reduce_eq_reduceRounds (r n P : Nat) : reduce r n P = reduceRounds P n r (n - 1) := rfl

/-- Each round clears one bit with a shift of P. -/
theorem reduceRounds_succ (P r : Nat) {n m : Nat} (hm : m + 1 < n) :
    reduceRounds P n r (m + 1) = clearBit P n (n - 2 - m) (reduceRounds P n r m) := by
  have hbit : 2 * n - 2 - m = n - 2 - m + n := by omega
  simp only [reduceRounds, List.range_succ, List.foldl_append, List.foldl_cons, List.foldl_nil, hbit]
  rfl

theorem reduceRounds_spec {P n r : Nat} (hP : HasDegree P n) (hr : r < 2 ^ (2 * n - 1)) {m : Nat} (hm : m < n) :
    reduceRounds P n r m < 2 ^ (2 * n - 1 - m) ∧ quot P (reduceRounds P n r m) = quot P r := by
  induction m with
  | zero => exact ⟨hr, rfl⟩
  | succ m ih =>
    obtain ⟨hlt, hquot⟩ := ih (by omega)
    rw [show 2 * n - 1 - m = n - 2 - m + n + 1 by omega] at hlt
    rw [reduceRounds_succ P r hm, show 2 * n - 1 - (m + 1) = n - 2 - m + n by omega]
    exact ⟨clearBit_lt hP hlt, (quot_clearBit ..).trans hquot⟩

theorem reduce_spec {P n r : Nat} (hP : HasDegree P n) (hn : 1 ≤ n) (hr : r < 2 ^ (2 * n - 1)) :
    reduce r n P < 2 ^ n ∧ quot P (reduce r n P) = quot P r := by
  have hrounds := reduceRounds_spec hP hr (m := n - 1) (by omega)
  rwa [show 2 * n - 1 - (n - 1) = n by omega, ← reduce_eq_reduceRounds] at hrounds

/-- R152: the reduced product stands for the product in the quotient by P. -/
theorem reduce_clmul_spec {P n a b : Nat} (hP : HasDegree P n) (hn : 1 ≤ n) (ha : a < 2 ^ n) (hb : b < 2 ^ n) :
    reduce (clmul a b n) n P < 2 ^ n ∧ quot P (reduce (clmul a b n) n P) = quot P a * quot P b := by
  obtain ⟨hlt, hquot⟩ := reduce_spec hP hn (clmul_lt b ha)
  refine ⟨hlt, ?_⟩
  rw [hquot, quot, toPoly_clmul hb, map_mul]
  rfl

/-- The quotient by an irreducible polynomial of degree n has 2^n - 1 units (Fermat). -/
theorem quot_pow_eq_one {P n a : Nat} (hn : 1 ≤ n) (hP : irreducible n P = true) (ha : quot P a ≠ 0) :
    quot P a ^ (2 ^ n - 1) = 1 := by
  have hirr : Fact (Irreducible (toPoly P)) := ⟨irreducible_toPoly hn hP⟩
  have hfin : Module.Finite (ZMod 2) (AdjoinRoot (toPoly P)) := (irreducible_hasDegree hP).monic.finite_adjoinRoot
  have hfinite : Finite (AdjoinRoot (toPoly P)) := Module.finite_of_finite (ZMod 2)
  have hfintype : Fintype (AdjoinRoot (toPoly P)) := Fintype.ofFinite _
  have hcard : Fintype.card (AdjoinRoot (toPoly P)) = 2 ^ n := by
    rw [Module.card_eq_pow_finrank (K := ZMod 2), ZMod.card, (AdjoinRoot.powerBasis hirr.out.ne_zero).finrank,
      AdjoinRoot.powerBasis_dim, (irreducible_hasDegree hP).natDegree]
  rw [← hcard]
  exact FiniteField.pow_card_sub_one_eq_one _ ha

end

/-! ### The element operations of F (R151, R153) -/

theorem Field.size_eq (F : Field) : F.size = 2 ^ F.bits := by cases F <;> rfl

theorem Field.one_le_bits (F : Field) : 1 ≤ F.bits := by cases F <;> decide

theorem Field.holds_iff {F : Field} {a : Byte} : F.holds a = true ↔ a.toNat < 2 ^ F.bits := by
  rw [Field.holds, decide_eq_true_eq, Field.size_eq]

@[simp] theorem Field.holds_zero (F : Field) : F.holds 0#8 = true := by cases F <;> rfl

@[simp] theorem Field.holds_one (F : Field) : F.holds 1#8 = true := by cases F <;> rfl

theorem Field.holds_xor {F : Field} {a b : Byte} (ha : F.holds a = true) (hb : F.holds b = true) :
    F.holds (a ^^^ b) = true := by
  rw [Field.holds_iff] at *
  exact Nat.xor_lt_two_pow ha hb

/-- The reduction polynomial of F as a number; GF(2) is the quotient by x. -/
def Field.modulus (p : Params) : Field → Nat
  | .gf2 => 2
  | .gf16 => p.poly4.toNat
  | .gf256 => p.poly8.toNat

theorem Field.irreducible_modulus {p : Params} (hp : paramsLegal p = true) (F : Field) :
    irreducible F.bits (F.modulus p) = true := by
  simp only [paramsLegal, Bool.and_eq_true] at hp
  obtain ⟨⟨_, h4⟩, h8⟩ := hp
  cases F with
  | gf2 => exact (by decide : irreducible 1 2 = true)
  | gf16 => exact h4
  | gf256 => exact h8

theorem Field.hasDegree_modulus {p : Params} (hp : paramsLegal p = true) (F : Field) :
    HasDegree (F.modulus p) F.bits := irreducible_hasDegree (F.irreducible_modulus hp)

theorem Field.gf2_holds {a : Byte} (ha : Field.gf2.holds a = true) : a = 0#8 ∨ a = 1#8 := by
  have hlt : a.toNat < 2 := of_decide_eq_true ha
  bv_omega

/-- In every field mul_F is the reduced carry-less product; in GF(2) there is nothing to reduce. -/
theorem mulF_toNat {p : Params} (hp : paramsLegal p = true) {F : Field} {a b : Byte} (ha : F.holds a = true)
    (hb : F.holds b = true) :
    (mulF p F a b).toNat = reduce (clmul a.toNat b.toNat F.bits) F.bits (F.modulus p) := by
  have hlt := (reduce_clmul_spec (F.hasDegree_modulus hp) F.one_le_bits (Field.holds_iff.1 ha) (Field.holds_iff.1 hb)).1
  cases F with
  | gf2 =>
    obtain rfl | rfl := Field.gf2_holds ha
    all_goals obtain rfl | rfl := Field.gf2_holds hb
    all_goals rfl
  | gf16 => exact Nat.mod_eq_of_lt (hlt.trans (by decide))
  | gf256 => exact Nat.mod_eq_of_lt hlt

/-- The element of the field F that a byte stands for. -/
noncomputable def elem (p : Params) (F : Field) (a : Byte) : AdjoinRoot (toPoly (F.modulus p)) := quot (F.modulus p) a.toNat

@[simp] theorem elem_zero (p : Params) (F : Field) : elem p F 0#8 = 0 := quot_zero _

@[simp] theorem elem_one (p : Params) (F : Field) : elem p F 1#8 = 1 := quot_one _

theorem elem_xor (p : Params) (F : Field) (a b : Byte) : elem p F (a ^^^ b) = elem p F a + elem p F b := by
  rw [elem, BitVec.toNat_xor, quot_xor]
  rfl

section

variable {p : Params} (hp : paramsLegal p = true) {F : Field} {a b : Byte} (ha : F.holds a = true) (hb : F.holds b = true)

include hp ha hb

theorem elem_inj (h : elem p F a = elem p F b) : a = b :=
  BitVec.eq_of_toNat_eq
    (quot_injOn (F.hasDegree_modulus hp) (Field.holds_iff.1 ha) (Field.holds_iff.1 hb) h)

theorem holds_mulF : F.holds (mulF p F a b) = true := by
  rw [Field.holds_iff, mulF_toNat hp ha hb]
  exact (reduce_clmul_spec (F.hasDegree_modulus hp) F.one_le_bits (Field.holds_iff.1 ha) (Field.holds_iff.1 hb)).1

theorem elem_mulF : elem p F (mulF p F a b) = elem p F a * elem p F b := by
  rw [elem, mulF_toNat hp ha hb]
  exact (reduce_clmul_spec (F.hasDegree_modulus hp) F.one_le_bits (Field.holds_iff.1 ha) (Field.holds_iff.1 hb)).2

omit hb

theorem mulF_zero : mulF p F a 0#8 = 0#8 :=
  elem_inj hp (holds_mulF hp ha F.holds_zero) F.holds_zero (by rw [elem_mulF hp ha F.holds_zero, elem_zero, mul_zero])

theorem mulF_one : mulF p F a 1#8 = a :=
  elem_inj hp (holds_mulF hp ha F.holds_one) ha (by rw [elem_mulF hp ha F.holds_one, elem_one, mul_one])

theorem zero_mulF : mulF p F 0#8 a = 0#8 :=
  elem_inj hp (holds_mulF hp F.holds_zero ha) F.holds_zero (by rw [elem_mulF hp F.holds_zero ha, elem_zero, zero_mul])

include hb in
/-- R153: `n` rounds multiply sq^(2 + 4 + … + 2^n) into the accumulator. -/
theorem invLoop_spec (n : Nat) :
    F.holds (invLoop p F n a b) = true ∧ elem p F (invLoop p F n a b) = elem p F b * elem p F a ^ (2 ^ (n + 1) - 2) := by
  induction n generalizing a b with
  | zero => exact ⟨hb, by simp [invLoop]⟩
  | succ n ih =>
    have hsq := holds_mulF hp ha ha
    obtain ⟨hholds, helem⟩ := ih hsq (holds_mulF hp hb hsq)
    refine ⟨hholds, helem.trans ?_⟩
    have hpow : 2 ^ (n + 1 + 1) - 2 = 2 + 2 * (2 ^ (n + 1) - 2) := by
      have := Nat.one_lt_two_pow (n := n + 1) (by omega)
      rw [Nat.pow_succ 2 (n + 1)]
      omega
    rw [elem_mulF hp hb hsq, elem_mulF hp ha ha, ← sq, hpow, pow_add (elem p F a), pow_mul (elem p F a), mul_assoc]

theorem holds_invF : F.holds (invF p F a) = true := (invLoop_spec hp ha F.holds_one _).1

/-- R153: inv_F is the inverse. -/
theorem invF_mulF (hne : a ≠ 0#8) : mulF p F (invF p F a) a = 1#8 := by
  have helem : elem p F (invF p F a) = elem p F a ^ (2 ^ F.bits - 2) := by
    have := (invLoop_spec hp ha F.holds_one (F.bits - 1)).2
    rwa [elem_one, one_mul, Nat.sub_add_cancel F.one_le_bits] at this
  have hne' : elem p F a ≠ 0 := fun h => hne (elem_inj hp ha F.holds_zero (h.trans (elem_zero p F).symm))
  refine elem_inj hp (holds_mulF hp (holds_invF hp ha) ha) F.holds_one ?_
  calc elem p F (mulF p F (invF p F a) a)
    _ = elem p F a ^ (2 ^ F.bits - 2) * elem p F a := by rw [elem_mulF hp (holds_invF hp ha) ha, helem]
    _ = elem p F a ^ (2 ^ F.bits - 1) := by
      have := Nat.one_lt_two_pow (n := F.bits) (by have := F.one_le_bits; omega)
      rw [← pow_succ]
      congr 1
      omega
    _ = 1 := quot_pow_eq_one F.one_le_bits (F.irreducible_modulus hp) hne'
    _ = elem p F 1#8 := (elem_one p F).symm

end

end Sys2Proof.Machine

namespace Sys2Proof.Machine

open Sys2Proof

/-! ## The structural invariant (spec/10_state R22, R40-R55, R58)

### Memories inside their bounds -/

/-- A memory in canonical form whose listed offsets are ones that `inside` admits. -/
def Stored (m : Memory) (inside : Nat → Bool) : Prop := m.wf = true ∧ m.within inside = true

theorem stored_nil (inside : Nat → Bool) : Stored [] inside := ⟨rfl, rfl⟩

theorem stored_ofCells (inside : Nat → Bool) (cells : List Host.Cell) : Stored (Memory.ofCells inside cells) inside :=
  ⟨Memory.wf_ofCells inside cells, Memory.within_ofCells inside cells⟩

theorem Stored.write {m : Memory} {inside : Nat → Bool} (h : Stored m inside) {x : Nat} (hx : inside x = true) (b : Byte) :
    Stored (m.write x b) inside :=
  ⟨Memory.wf_write h.1 x b, Memory.within_write h.2 hx b⟩

theorem Stored.writeRun {m : Memory} {inside : Nat → Bool} (h : Stored m inside) {x : Nat} {bs : List Byte}
    (hx : ∀ j < bs.length, inside (x + j) = true) : Stored (m.writeRun x bs) inside :=
  ⟨Memory.wf_writeRun h.1 x bs, Memory.within_writeRun h.2 x bs hx⟩

/-- The bytes of BLK (R8, R46). -/
def insideBlk (p : Params) (a : Nat) : Bool := decide (a < blockBytes p)

/-- The bytes of PBUF (R8, R47). -/
def insidePbuf (p : Params) (a : Nat) : Bool := decide (a < pbufBytes p)

/-- The entries of CVEC for k symbols (R48). -/
def insideCvec (k i : Nat) : Bool := decide (i < k)

/-- The four memories are canonical and inside their bounds. -/
structure MemoriesOk (s : State) : Prop where
  blk : Stored s.blk (insideBlk s.params)
  pbuf : Stored s.pbuf (insidePbuf s.params)
  rows : Stored s.rows (rowsInside s.params)
  cvec : Stored s.cvec (insideCvec s.k)

theorem memoriesOk_iff {s : State} : MemoriesOk s ↔ canonical s = true ∧ bounded s = true := by
  simp only [canonical, bounded, Bool.and_eq_true]
  constructor
  · rintro ⟨⟨hb, hb'⟩, ⟨hp, hp'⟩, ⟨hr, hr'⟩, hc, hc'⟩
    exact ⟨⟨⟨⟨hb, hp⟩, hc⟩, hr⟩, ⟨⟨hb', hp'⟩, hr'⟩, hc'⟩
  · rintro ⟨⟨⟨⟨hb, hp⟩, hc⟩, hr⟩, ⟨⟨hb', hp'⟩, hr'⟩, hc'⟩
    exact ⟨⟨hb, hb'⟩, ⟨hp, hp'⟩, ⟨hr, hr'⟩, hc, hc'⟩

theorem MemoriesOk.canonical {s : State} (h : MemoriesOk s) : canonical s = true := (memoriesOk_iff.1 h).1

theorem MemoriesOk.bounded {s : State} (h : MemoriesOk s) : bounded s = true := (memoriesOk_iff.1 h).2

theorem Inv.memories {s : State} (h : Inv s) : MemoriesOk s := memoriesOk_iff.2 ⟨h.canonical, h.bounded⟩

/-! ### Reserved bits -/

/-- A register holds no bit outside its named bits. -/
def InMask (w mask : Word) : Prop := w &&& ~~~mask = 0

theorem inMask_zero (mask : Word) : InMask 0 mask := BitVec.zero_and

theorem inMask_and (v mask : Word) : InMask (v &&& mask) mask := by
  simp [InMask, BitVec.and_assoc]

theorem InMask.or {w v mask : Word} (hw : InMask w mask) (hv : InMask v mask) : InMask (w ||| v) mask := by
  simp only [InMask] at *
  rw [BitVec.and_or_distrib_right, hw, hv]
  rfl

theorem InMask.and {w mask : Word} (hw : InMask w mask) (v : Word) : InMask (w &&& v) mask := by
  simp only [InMask] at *
  rw [BitVec.and_assoc, BitVec.and_comm v, ← BitVec.and_assoc, hw]
  exact BitVec.zero_and

/-- The named bits of ERRFLAGS (R30). -/
def errflagsMask : Word := 0x7E#32

/-- RESULT holds one element (R31). -/
def resultMask : Word := 0xFF#32

structure ReservedOk (s : State) : Prop where
  ctrl : InMask s.ctrl ctrlMask
  errflags : InMask s.errflags errflagsMask
  result : InMask s.result resultMask
  cfg0 : InMask s.cfg0 cfg0Mask
  cfgSymbols : InMask s.cfgSymbols half16Mask
  cfgSymsize : InMask s.cfgSymsize half16Mask
  cfgDensity : InMask s.cfgDensity half16Mask
  acfg0 : InMask s.acfg0 cfg0Mask

theorem reservedOk_iff {s : State} : ReservedOk s ↔ reservedZero s = true := by
  simp only [reservedZero, Bool.and_eq_true, beq_iff_eq]
  constructor
  · rintro ⟨hctrl, hflags, hres, hcfg0, hsym, hsize, hden, hacfg⟩
    exact ⟨⟨⟨⟨⟨⟨⟨hctrl, hflags⟩, hres⟩, hcfg0⟩, hsym⟩, hsize⟩, hden⟩, hacfg⟩
  · rintro ⟨⟨⟨⟨⟨⟨⟨hctrl, hflags⟩, hres⟩, hcfg0⟩, hsym⟩, hsize⟩, hden⟩, hacfg⟩
    exact ⟨hctrl, hflags, hres, hcfg0, hsym, hsize, hden, hacfg⟩

theorem ReservedOk.reserved {s : State} (h : ReservedOk s) : reservedZero s = true := reservedOk_iff.1 h

theorem Inv.reservedOk {s : State} (h : Inv s) : ReservedOk s := reservedOk_iff.2 h.reserved

theorem inMask_flagsAfter {flags : Word} (h : InMask flags errflagsMask) (e : ErrCode) :
    InMask (flagsAfter flags e) errflagsMask := by
  cases e with
  | none => exact h
  | config => exact h.or (rfl : InMask 0x2#32 errflagsMask)
  | framing => exact h.or (rfl : InMask 0x4#32 errflagsMask)
  | divZero => exact h.or (rfl : InMask 0x8#32 errflagsMask)
  | illegal => exact h.or (rfl : InMask 0x10#32 errflagsMask)
  | state => exact h.or (rfl : InMask 0x20#32 errflagsMask)

theorem inMask_setWidth (r : Byte) : InMask (r.setWidth 32) resultMask := by
  have hclip : r.setWidth 32 = r.setWidth 32 &&& resultMask := by
    apply BitVec.eq_of_toNat_eq
    rw [BitVec.toNat_and, show resultMask.toNat = 2 ^ 8 - 1 from rfl, Nat.and_two_pow_sub_one_eq_mod,
      BitVec.toNat_setWidth]
    omega
  rw [hclip]
  exact inMask_and _ _

/-! ### What the invariant says of the sizes -/

theorem paramsLegal_bounds {p : Params} (h : paramsLegal p = true) :
    1 ≤ p.kMax ∧ p.kMax ≤ 256 ∧ 100 ≤ p.sMax ∧ p.sMax ≤ 65535 ∧ p.rerollMax ≤ 255 := by
  simp only [paramsLegal, Bool.and_eq_true, decide_eq_true_eq] at h
  exact h.1.1

/-- activeOk, as a record. -/
structure ActiveOk (s : State) : Prop where
  field : (cfgField s.acfg0).toNat ≤ 2
  format : s.format.toNat ≤ 1
  one_le_k : 1 ≤ s.k
  k_le : s.k ≤ s.params.kMax
  one_le_symSize : 1 ≤ s.symSize
  symSize_le : s.symSize ≤ s.params.sMax
  hdr_eq : s.hdr = headerSize s.field s.format s.k
  psize_eq : s.psize.toNat = s.hdr + s.symSize
  dens_le : s.dens ≤ 0x8000

theorem activeOk_iff {s : State} : ActiveOk s ↔ activeOk s = true := by
  simp only [activeOk, decide_eq_true_eq]
  constructor
  · rintro ⟨hfield, hformat, hk, hk', hS, hS', hhdr, hpsize, hdens⟩
    exact ⟨hfield, hformat, hk, hk', hS, hS', hhdr, hpsize, hdens⟩
  · rintro ⟨hfield, hformat, hk, hk', hS, hS', hhdr, hpsize, hdens⟩
    exact ⟨hfield, hformat, hk, hk', hS, hS', hhdr, hpsize, hdens⟩

theorem Inv.activeOk {s : State} (h : Inv s) (hc : s.configured = true) : ActiveOk s := activeOk_iff.2 (h.active hc)

theorem Inv.kMax_le {s : State} (h : Inv s) : s.params.kMax ≤ 256 := (paramsLegal_bounds h.legal).2.1

theorem headerSize_bounds (F : Field) (fmt : BitVec 2) {k : Nat} (hk : 1 ≤ k) :
    3 ≤ headerSize F fmt k ∧ headerSize F fmt k ≤ max 8 (2 + k) := by
  unfold headerSize
  split
  · cases F <;> simp only [Field.bits] <;> omega
  · omega

/-- A payload of the active configuration fits PBUF (R253). -/
theorem ActiveOk.payload_le {s : State} (h : ActiveOk s) : s.hdr + s.symSize ≤ pbufBytes s.params := by
  have hhdr := (headerSize_bounds s.field s.format h.one_le_k).2
  have hk := h.k_le
  have hS := h.symSize_le
  rw [h.hdr_eq]
  unfold pbufBytes
  omega

theorem ActiveOk.three_le_hdr {s : State} (h : ActiveOk s) : 3 ≤ s.hdr := by
  rw [h.hdr_eq]
  exact (headerSize_bounds s.field s.format h.one_le_k).1

/-- A byte of a symbol of the active configuration lies in BLK (R46). -/
theorem ActiveOk.symAt_inside {s : State} (h : ActiveOk s) {i t : Nat} (hi : i < s.k) (ht : t < s.symSize) :
    insideBlk s.params (symAt s.symSize i + t) = true := by
  refine decide_eq_true ?_
  calc symAt s.symSize i + t
    _ < (i + 1) * s.symSize := by rw [symAt, Nat.add_mul]; omega
    _ ≤ s.params.kMax * s.params.sMax := Nat.mul_le_mul (hi.trans_le h.k_le) h.symSize_le

/-- An entry of a row of the active configuration lies in ROWS (R49). -/
theorem Inv.rowAt_inside {s : State} (hinv : Inv s) (h : ActiveOk s) {r c : Nat} (hr : r < s.k) (hc : c < s.k) :
    rowsInside s.params (rowAt r + c) = true := by
  have hk := h.k_le
  have hmax := hinv.kMax_le
  exact decide_eq_true (by unfold rowAt; omega)

/-! ### Completion and errors -/

theorem Inv.complete {s : State} (h : Inv s) (e : ErrCode) : Inv (complete e s) :=
  have hr : ReservedOk (Machine.complete e s) :=
    { h.reservedOk with errflags := inMask_flagsAfter h.reservedOk.errflags e }
  { h with reserved := hr.reserved, busy := rfl }


theorem inv_draws {s : State} (h : Inv s) (rs : List Word) : Inv { s with draws := rs } :=
  { h with }

theorem inv_setResult {s : State} (h : Inv s) (r : Byte) : Inv (setResult r s) :=
  have hr : ReservedOk (setResult r s) := { h.reservedOk with result := inMask_setWidth r }
  { h with reserved := hr.reserved }

theorem MemoriesOk.writeCvec {s : State} (h : MemoriesOk s) {v : List Byte} (hv : v.length = s.k) :
    MemoriesOk (writeCvec v s) :=
  { h with cvec := h.cvec.writeRun fun j hj => decide_eq_true (by omega) }

theorem inv_writeCvec {s : State} (h : Inv s) {v : List Byte} (hv : v.length = s.k) : Inv (writeCvec v s) :=
  have hm := h.memories.writeCvec hv
  { h with canonical := hm.canonical, bounded := hm.bounded }

/-! ### INIT (R131) -/

theorem low16_lt (w : Word) : low16 w < 2 ^ 16 := (w.extractLsb' 0 16).isLt

theorem packCfg_fields (f fmt : BitVec 2) (role : Bool) :
    cfgField (packCfg f fmt role) = f ∧ cfgFormat (packCfg f fmt role) = fmt ∧ cfgRole (packCfg f fmt role) = role := by
  revert f fmt role
  decide

theorem inMask_packCfg (f fmt : BitVec 2) (role : Bool) : InMask (packCfg f fmt role) cfg0Mask := by
  unfold InMask
  revert f fmt role
  decide

/-- A failed INIT leaves nothing of the old configuration (R131, R135). -/
theorem inv_unconfigure_teardown {s : State} (h : Inv s) : Inv (unconfigure (teardown s)) :=
  have hm : MemoriesOk (unconfigure (teardown s)) := { h.memories with cvec := stored_nil _ }
  have hr : ReservedOk (unconfigure (teardown s)) := { h.reservedOk with acfg0 := inMask_zero _ }
  { h with
    canonical := hm.canonical, bounded := hm.bounded, reserved := hr.reserved
    active := nofun, encoder := nofun, decoder := nofun, empty := fun _ => rfl }

theorem activeOk_configure {s : State} (hlegal : paramsLegal s.params = true) (h : configOk s = true) :
    ActiveOk (configure (teardown s)) := by
  simp only [configOk, decide_eq_true_eq] at h
  obtain ⟨hfield, hformat, hk, hk', hS, hS', hD⟩ := h
  obtain ⟨hF, hfmt, _⟩ := packCfg_fields (cfgField s.cfg0) (cfgFormat s.cfg0) (cfgRole s.cfg0)
  have hbounds := paramsLegal_bounds hlegal
  have hnewk : (configure (teardown s)).k = low16 s.cfgSymbols :=
    Nat.mod_eq_of_lt ((low16_lt _).trans (by decide))
  have hnewS : (configure (teardown s)).symSize = low16 s.cfgSymsize :=
    Nat.mod_eq_of_lt ((low16_lt _).trans (by decide))
  have hnewD : (configure (teardown s)).dens = low16 s.cfgDensity :=
    Nat.mod_eq_of_lt ((low16_lt _).trans (by decide))
  have hsize : 3 ≤ newHeader s ∧ newHeader s ≤ max 8 (2 + low16 s.cfgSymbols) :=
    headerSize_bounds _ _ (Nat.one_le_iff_ne_zero.2 hk)
  have hnewH : (configure (teardown s)).hdr = newHeader s := Nat.mod_eq_of_lt (a := newHeader s) (by omega)
  have hnewP : (configure (teardown s)).psize.toNat = newHeader s + low16 s.cfgSymsize :=
    Nat.mod_eq_of_lt (a := newHeader s + low16 s.cfgSymsize) (by omega)
  have hnewF : (configure (teardown s)).field = Field.ofCode (cfgField s.cfg0) := congrArg Field.ofCode hF
  have hnewfmt : (configure (teardown s)).format = cfgFormat s.cfg0 := hfmt
  exact
    { field := hF ▸ hfield
      format := hnewfmt ▸ hformat
      one_le_k := by omega
      k_le := hnewk ▸ hk'
      one_le_symSize := by omega
      symSize_le := hnewS ▸ hS'
      hdr_eq := by rw [hnewH, hnewF, hnewfmt, hnewk]; rfl
      psize_eq := by rw [hnewP, hnewH, hnewS]
      dens_le := hnewD ▸ hD }

theorem inv_configure_teardown {s : State} (h : Inv s) (hok : configOk s = true) : Inv (configure (teardown s)) :=
  have hm : MemoriesOk (configure (teardown s)) := { h.memories with cvec := stored_nil _ }
  have hr : ReservedOk (configure (teardown s)) := { h.reservedOk with acfg0 := inMask_packCfg _ _ _ }
  have ha := activeOk_configure h.legal hok
  { h with
    canonical := hm.canonical, bounded := hm.bounded, reserved := hr.reserved
    active := fun _ => activeOk_iff.1 ha
    encoder := fun _ _ => by
      have hk := ha.one_le_k
      have hcursor : (configure (teardown s)).cursor.toNat ≠ (configure (teardown s)).k := by
        change 0 ≠ _
        omega
      simp only [encoderOk, hcursor]
      rfl
    decoder := fun _ _ => by
      simp only [decoderOk, Bool.and_eq_true, decide_eq_true_eq]
      exact ⟨⟨⟨⟨rfl, rfl⟩, rfl⟩, Nat.zero_le _⟩, Nat.two_pow_pos _⟩
    empty := nofun }

theorem execInit_inv {s : State} (h : Inv s) : Yields Inv (execInit s) := by
  unfold execInit
  split
  · next hok => exact yields_finish.2 ((inv_configure_teardown h hok).complete _)
  · exact yields_raise.2 ((inv_unconfigure_teardown h).complete _)

/-! ### GF.AXPY and the generator (R158, R186, R187) -/

theorem stored_axpy {m : Memory} {inside : Nat → Bool} (h : Stored m inside) (p : Params) (F : Field) (S : Nat)
    (coeff : Byte) (dst src : Nat) (hin : ∀ t < S, inside (symAt S dst + t) = true) :
    Stored (axpy p F S coeff dst src m) inside :=
  List.foldlRecOn (motive := fun m => Stored m inside) _ _ h fun _ hm t ht => hm.write (hin t (List.mem_range.1 ht)) _

theorem execGfAxpy_inv (coeff dst src : Byte) {s : State} (h : Inv s) : Yields Inv (execGfAxpy coeff dst src s) := by
  refine yields_withInstance (fun _ => h.complete _) fun hc => ?_
  refine yields_withRange (fun _ => h.complete _) fun hok => yields_finish.2 (Inv.complete ?_ _)
  simp only [Bool.and_eq_true, decide_eq_true_eq] at hok
  obtain ⟨⟨_, hdst⟩, _⟩ := hok
  have hm : MemoriesOk { s with blk := axpy s.params s.field s.symSize coeff dst.toNat src.toNat s.blk } :=
    { h.memories with
      blk := stored_axpy h.memories.blk _ _ _ _ _ _ fun t ht => (h.activeOk hc).symAt_inside hdst ht }
  exact { h with canonical := hm.canonical, bounded := hm.bounded }

theorem execGenDense_inv {s : State} (h : Inv s) : Yields Inv (execGenDense s) := by
  refine yields_withInstance (fun _ => h.complete _) fun _ => ?_
  refine yields_withDraws (fun _ => h) fun hdraws => yields_finish.2 (Inv.complete ?_ _)
  refine inv_writeCvec (inv_draws h _) ?_
  rw [length_dense, List.length_take_of_le hdraws]
  rfl

theorem execGenSparse_inv {s : State} (h : Inv s) : Yields Inv (execGenSparse s) :=
  yields_withInstance (fun _ => h.complete _) fun _ =>
    yields_finish.2 ((inv_writeCvec h (length_expand ..)).complete _)

/-! ### ENC.WRITE and ENC.SETDENS (R200, R205) -/

/-- encoderOk, as a record. -/
structure EncoderOk (s : State) : Prop where
  rank : s.rank = 0
  piv : s.piv = 0
  lastRead : s.lastRead = .none
  unit : s.unit = false
  cursor_le : s.cursor.toNat ≤ s.k
  coded : s.coded = decide (s.cursor.toNat = s.k)

theorem encoderOk_iff {s : State} : EncoderOk s ↔ encoderOk s = true := by
  simp only [encoderOk, Bool.and_eq_true, beq_iff_eq, decide_eq_true_eq, Bool.not_eq_true']
  constructor
  · rintro ⟨hrank, hpiv, hlast, hunit, hcursor, hcoded⟩
    exact ⟨⟨⟨⟨⟨hrank, hpiv⟩, hlast⟩, hunit⟩, hcursor⟩, hcoded⟩
  · rintro ⟨⟨⟨⟨⟨hrank, hpiv⟩, hlast⟩, hunit⟩, hcursor⟩, hcoded⟩
    exact ⟨hrank, hpiv, hlast, hunit, hcursor, hcoded⟩

theorem Inv.encoderOk {s : State} (h : Inv s) (hc : s.configured = true) (hd : s.isDecoder = false) : EncoderOk s :=
  encoderOk_iff.2 (h.encoder hc hd)

/-- A payload of H + S bytes with its vector goes to CVEC and PBUF (R200). -/
theorem MemoriesOk.emit {s : State} (h : MemoriesOk s) (ha : ActiveOk s) {v hdr body : List Byte} (hv : v.length = s.k)
    (hhdr : hdr.length = s.hdr) (hbody : body.length = s.symSize) : MemoriesOk (emit v hdr body s) :=
  { h.writeCvec hv with
    pbuf := h.pbuf.writeRun fun j hj => by
      have hfit := ha.payload_le
      rw [List.length_append] at hj
      exact decide_eq_true (by omega) }

theorem inv_emit {s : State} (h : Inv s) (ha : ActiveOk s) {v hdr body : List Byte} (hv : v.length = s.k)
    (hhdr : hdr.length = s.hdr) (hbody : body.length = s.symSize) : Inv (emit v hdr body s) :=
  have hm := h.memories.emit ha hv hhdr hbody
  { h with canonical := hm.canonical, bounded := hm.bounded }

/-- While CODED = 0 the cursor is at a symbol (R41, R53). -/
theorem EncoderOk.cursor_lt {s : State} (h : EncoderOk s) (hcoded : s.coded = false) : s.cursor.toNat < s.k := by
  have hne : s.cursor.toNat ≠ s.k := by simpa [hcoded] using h.coded
  have hle := h.cursor_le
  omega

theorem EncoderOk.cursor_succ {s : State} (h : EncoderOk s) (hcoded : s.coded = false) :
    (s.cursor + 1#32).toNat = s.cursor.toNat + 1 := by
  have hlt := h.cursor_lt hcoded
  have hk : s.k < 2 ^ 32 := s.asymbols.isLt
  exact Nat.mod_eq_of_lt (a := s.cursor.toNat + 1) (by omega)

theorem inv_writeSystematic {s : State} (h : Inv s) (hc : s.configured = true) (hd : s.isDecoder = false)
    (hcoded : s.coded = false) : Inv (writeSystematic s) := by
  have ha := h.activeOk hc
  have he := h.encoderOk hc hd
  have hi := inv_emit h ha (length_unitVec s.k s.cursor.toNat) (length_sysHeader s.field s.cursor.toNat ha.three_le_hdr)
    (Memory.length_readRun s.blk (symAt s.symSize s.cursor.toNat) s.symSize)
  have hcursor : (writeSystematic s).cursor.toNat = s.cursor.toNat + 1 := he.cursor_succ hcoded
  have henc : EncoderOk (writeSystematic s) :=
    { he with
      cursor_le := hcursor ▸ he.cursor_lt hcoded
      coded := by
        rw [hcursor]
        change (s.coded || decide (s.cursor.toNat + 1 = s.k)) = _
        rw [hcoded, Bool.false_or]
        rfl }
  exact
    { hi with
      encoder := fun _ _ => encoderOk_iff.1 henc
      decoder := fun _ hd' => absurd (hd.symm.trans hd') Bool.false_ne_true
      empty := fun hc' => absurd (hc'.symm.trans hc) Bool.false_ne_true }

theorem inv_writeDense {s : State} (h : Inv s) (hc : s.configured = true) {v : List Byte} (hv : v.length = s.k) :
    Inv (writeDense v s) :=
  have ha := h.activeOk hc
  inv_emit h ha hv (length_denseHeader s.field v (by have := ha.three_le_hdr; omega)) (length_codedBody ..)

theorem inv_writeSparse {s : State} (h : Inv s) (hc : s.configured = true) (hd : s.isDecoder = false)
    (hfmt : s.format ≠ 0#2) (seed : Word) : Inv (writeSparse seed s) := by
  have ha := h.activeOk hc
  have hhdr : s.hdr = 8 := by rw [ha.hdr_eq, headerSize, if_neg hfmt]
  have hi := inv_emit (hdr := sparseHeader s.field seed (s.density.setWidth 16))
    (body := codedBody s.params s.field s.symSize (expand s.params seed s.dens s.k s.field) s.blk) h ha
    (length_expand s.params seed s.dens s.k s.field) hhdr.symm (length_codedBody ..)
  exact
    { hi with
      decoder := fun _ hd' => absurd (hd.symm.trans hd') Bool.false_ne_true
      empty := fun hc' => absurd (hc'.symm.trans hc) Bool.false_ne_true }

theorem execEncWrite_inv {s : State} (h : Inv s) : Yields Inv (execEncWrite s) := by
  refine yields_withRole (h.complete _) fun hc hd => ?_
  split
  · next hcoded => exact yields_finish.2 ((inv_writeSystematic h hc hd hcoded).complete _)
  split
  · refine yields_withDraws (fun _ => h) fun hdraws => yields_finish.2 (Inv.complete ?_ _)
    refine inv_writeDense (inv_draws h (s.draws.drop s.k)) hc ?_
    rw [length_dense, List.length_take_of_le hdraws]
    rfl
  · next hfmt =>
    refine yields_withDraws (fun _ => h) fun _ => yields_finish.2 (Inv.complete ?_ _)
    exact inv_writeSparse (inv_draws h (s.draws.drop 1)) hc hd hfmt _

theorem execEncSetdens_inv (imm : BitVec 16) {s : State} (h : Inv s) : Yields Inv (execEncSetdens imm s) := by
  refine yields_withRole (h.complete _) fun hc _ => ?_
  split
  · next hok =>
    refine yields_finish.2 (Inv.complete ?_ _)
    have ha : ActiveOk { s with density := imm.setWidth 32 } :=
      { h.activeOk hc with
        dens_le := by
          have hdens : imm.toNat ≤ 0x8000 := of_decide_eq_true hok
          change (imm.setWidth 32).toNat ≤ _
          rwa [BitVec.toNat_setWidth, Nat.mod_eq_of_lt (imm.isLt.trans (by decide))] }
    exact
      { h with
        active := fun _ => activeOk_iff.1 ha
        empty := fun hc' => absurd (hc'.symm.trans hc) Bool.false_ne_true }
  · exact yields_raise.2 (h.complete _)

/-! ### DEC.READ (R220) -/

/-- decoderOk, as a record. -/
structure DecoderOk (s : State) : Prop where
  cursor : s.cursor = 0
  coded : s.coded = false
  seedLast : s.seedLast = 0
  rank_le : s.rank.toNat ≤ s.k
  piv_lt : s.piv.toNat < 2 ^ s.k

theorem decoderOk_iff {s : State} : DecoderOk s ↔ decoderOk s = true := by
  simp only [decoderOk, Bool.and_eq_true, beq_iff_eq, decide_eq_true_eq, Bool.not_eq_true']
  constructor
  · rintro ⟨hcursor, hcoded, hseed, hrank, hpiv⟩
    exact ⟨⟨⟨⟨hcursor, hcoded⟩, hseed⟩, hrank⟩, hpiv⟩
  · rintro ⟨⟨⟨⟨hcursor, hcoded⟩, hseed⟩, hrank⟩, hpiv⟩
    exact ⟨hcursor, hcoded, hseed, hrank, hpiv⟩

theorem Inv.decoderOk {s : State} (h : Inv s) (hc : s.configured = true) (hd : s.isDecoder = true) : DecoderOk s :=
  decoderOk_iff.2 (h.decoder hc hd)

/-- RANK counts on, below k (R40). -/
theorem DecoderOk.rank_succ {s : State} (h : DecoderOk s) (hne : s.rank ≠ s.asymbols) :
    s.rank.toNat < s.k ∧ (s.rank + 1#32).toNat = s.rank.toNat + 1 := by
  have hne' : s.rank.toNat ≠ s.k := fun he => hne (BitVec.eq_of_toNat_eq he)
  have hlt : s.rank.toNat < s.k := lt_of_le_of_ne h.rank_le hne'
  have hk : s.k < 2 ^ 32 := s.asymbols.isLt
  exact ⟨hlt, Nat.mod_eq_of_lt (a := s.rank.toNat + 1) (by omega)⟩

theorem pivSet_lt {piv : BitVec 256} {k r : Nat} (hpiv : piv.toNat < 2 ^ k) (hr : r < k) : (pivSet piv r).toNat < 2 ^ k := by
  rw [pivSet, BitVec.toNat_or]
  refine Nat.or_lt_two_pow hpiv ?_
  rw [BitVec.toNat_shiftLeft]
  refine (Nat.mod_le _ _).trans_lt ?_
  change 1 <<< r < _
  rw [Nat.one_shiftLeft]
  exact Nat.pow_lt_pow_right one_lt_two hr

/-- The held rows are stored inside the memories of the unit. -/
def HeldStored (p : Params) (m : Held) : Prop := Stored m.rows (rowsInside p) ∧ Stored m.blk (insideBlk p)

section

variable {s : State} (h : Inv s) (ha : ActiveOk s) {m : Held} (hm : HeldStored s.params m)

include h ha hm

/-- A row of k entries and S bytes written at a row index below k stays inside the memories. -/
theorem heldStored_writeRow {r : Nat} (hr : r < s.k) {v d : List Byte} (hv : v.length = s.k) (hd : d.length = s.symSize) :
    HeldStored s.params ⟨m.rows.writeRun (rowAt r) v, m.blk.writeRun (symAt s.symSize r) d⟩ :=
  ⟨hm.1.writeRun fun _ hj => h.rowAt_inside ha hr (hv ▸ hj), hm.2.writeRun fun _ hj => ha.symAt_inside hr (hd ▸ hj)⟩

theorem heldStored_backSubst (pcol : Nat) {x : Scratch} (hv : x.v.length = s.k) (hd : x.d.length = s.symSize) :
    HeldStored s.params (backSubst s.params s.field s.k s.symSize s.piv pcol x m) := by
  refine List.foldlRecOn (motive := HeldStored s.params) _ _ hm fun m hm r hr => ?_
  unfold backSubstRow
  split
  · exact heldStored_writeRow h ha hm (List.mem_range.1 hr) (by simp [hv]) (by simp [hd])
  · exact hm

end

theorem inv_readInnovative {s : State} (h : Inv s) (hc : s.configured = true) (hd : s.isDecoder = true)
    (hrank : s.rank ≠ s.asymbols) {v : List Byte} {pcol : Nat} {x : Scratch} (hv : v.length = s.k) (hpcol : pcol < s.k)
    (hxv : x.v.length = s.k) (hxd : x.d.length = s.symSize) : Inv (readInnovative v pcol x s) := by
  have ha := h.activeOk hc
  have hdec := h.decoderOk hc hd
  obtain ⟨hlt, hsucc⟩ := hdec.rank_succ hrank
  obtain ⟨hrows, hblk⟩ := heldStored_writeRow h ha
    (heldStored_backSubst h ha (m := ⟨s.rows, s.blk⟩) ⟨h.memories.rows, h.memories.blk⟩ pcol hxv hxd) hpcol hxv hxd
  have hm : MemoriesOk (readInnovative v pcol x s) := { h.memories.writeCvec hv with rows := hrows, blk := hblk }
  have hdec' : DecoderOk (readInnovative v pcol x s) :=
    { hdec with
      rank_le := by rw [readInnovative_rank, hsucc]; exact hlt
      piv_lt := pivSet_lt hdec.piv_lt hpcol }
  exact
    { h with
      canonical := hm.canonical
      bounded := hm.bounded
      encoder := fun _ hd' => absurd (hd'.symm.trans hd) Bool.false_ne_true
      decoder := fun _ _ => decoderOk_iff.1 hdec'
      empty := fun hc' => absurd (hc'.symm.trans hc) Bool.false_ne_true }

theorem inv_readDependent {s : State} (h : Inv s) (hc : s.configured = true) (hd : s.isDecoder = true) {v : List Byte}
    (hv : v.length = s.k) (x : Scratch) : Inv (readDependent v x s) :=
  have hm := h.memories.writeCvec hv
  { h with
    canonical := hm.canonical
    bounded := hm.bounded
    encoder := fun _ hd' => absurd (hd'.symm.trans hd) Bool.false_ne_true
    empty := fun hc' => absurd (hc'.symm.trans hc) Bool.false_ne_true }

theorem inv_readIgnored {s : State} (h : Inv s) (hc : s.configured = true) (hd : s.isDecoder = true) :
    Inv (readIgnored s) :=
  { h with
    encoder := fun _ hd' => absurd (hd'.symm.trans hd) Bool.false_ne_true
    empty := fun hc' => absurd (hc'.symm.trans hc) Bool.false_ne_true }

theorem execDecRead_inv {s : State} (h : Inv s) : Yields Inv (execDecRead s) := by
  refine yields_withRole (h.complete _) fun hc hd => ?_
  split
  · exact yields_finish.2 ((inv_readIgnored h hc hd).complete _)
  next hrank =>
  split
  · exact yields_raise.2 (h.complete _)
  split
  · exact yields_raise.2 (h.complete _)
  next v hparsed =>
  refine yields_finish.2 (Inv.complete ?_ _)
  have hv : v.length = s.k := length_parseVector hparsed
  obtain ⟨hxv, hxd⟩ := length_reducedRow hv
  unfold readParsed
  split
  · next hne =>
    exact inv_readInnovative h hc hd hrank hv (hxv ▸ leading_lt hne) (by simp [normalize, hxv]) (by simp [normalize, hxd])
  · exact inv_readDependent h hc hd hv _

/-! ### Every command -/

theorem execGfAdd_inv (fld : BitVec 2) (a b : Byte) {s : State} (h : Inv s) : Yields Inv (execGfAdd fld a b s) :=
  yields_withRange (fun _ => h.complete _) fun _ => yields_finish.2 ((inv_setResult h _).complete _)

theorem execGfMul_inv (fld : BitVec 2) (a b : Byte) {s : State} (h : Inv s) : Yields Inv (execGfMul fld a b s) :=
  yields_withRange (fun _ => h.complete _) fun _ => yields_finish.2 ((inv_setResult h _).complete _)

theorem execGfInv_inv (fld : BitVec 2) (a : Byte) {s : State} (h : Inv s) : Yields Inv (execGfInv fld a s) := by
  refine yields_withRange (fun _ => h.complete _) fun _ => ?_
  split
  · exact yields_raise.2 (h.complete _)
  · exact yields_finish.2 ((inv_setResult h _).complete _)

theorem exec_inv (i : Instr) {s : State} (h : Inv s) : Yields Inv (exec i s) := by
  cases i with
  | nop => exact yields_finish.2 (h.complete _)
  | init => exact execInit_inv h
  | gfAdd fld a b => exact execGfAdd_inv fld a b h
  | gfMul fld a b => exact execGfMul_inv fld a b h
  | gfInv fld a => exact execGfInv_inv fld a h
  | gfAxpy coeff dst src => exact execGfAxpy_inv coeff dst src h
  | genDense => exact execGenDense_inv h
  | genSparse => exact execGenSparse_inv h
  | encWrite => exact execEncWrite_inv h
  | encSetdens imm => exact execEncSetdens_inv imm h
  | decRead => exact execDecRead_inv h

theorem engineTurn_inv {s : State} (h : Inv s) : Yields Inv (engineTurn s) := by
  obtain ⟨_, ht⟩ | ⟨_, _, ht⟩ | ⟨_, _, _, _, _, ht⟩ | ⟨_, i, _, _, _, ht⟩ := engineTurn_cases (s := s) rfl
  · rw [ht]; exact yields_next.2 h
  · rw [ht]; exact yields_next.2 h
  · rw [ht]; exact yields_raise.2 (h.complete _)
  · rw [ht]; exact exec_inv i h

/-! ### The host's writes (R23, R71, R279) -/

theorem busyOk_iff {s : State} : busyOk s = true ↔ (s.busy = true → s.done = false ∧ s.err = .none) := by
  cases hb : s.busy <;> simp [busyOk, hb]

theorem inv_accept {s : State} (h : Inv s) (w : Word) : Inv (accept w s) :=
  { h with busy := rfl }

theorem inv_writeStatus {s : State} (h : Inv s) (v : Word) : Inv (writeStatus v s) :=
  { h with
    busy := busyOk_iff.2 fun hb => by
      obtain ⟨hdone, herr⟩ := busyOk_iff.1 h.busy hb
      exact ⟨by rw [writeStatus_done, hdone, Bool.false_and], herr⟩ }

theorem inv_of_reserved {s t : State} (h : Inv s) (ht : t = { s with
      errflags := t.errflags, ctrl := t.ctrl, cfg0 := t.cfg0, cfgSymbols := t.cfgSymbols, cfgSymsize := t.cfgSymsize
      cfgDensity := t.cfgDensity })
    (hr : ReservedOk t) : Inv t := by
  rw [ht] at hr ⊢
  exact { h with reserved := hr.reserved }

/-- A register write keeps the reserved bits 0, and DONE and ERR 0 while a command is pending. -/
theorem inv_regWrite {s : State} (h : Inv s) (v : Word) (r : Reg) : Inv (regWrite v s r) := by
  have hr := h.reservedOk
  cases r with
  | ctrl => exact inv_of_reserved h rfl { hr with ctrl := inMask_and v _ }
  | cmd => exact inv_accept h v
  | status => exact inv_writeStatus h v
  | errflags => exact inv_of_reserved h rfl { hr with errflags := hr.errflags.and _ }
  | cfg0 => exact inv_of_reserved h rfl { hr with cfg0 := inMask_and v _ }
  | cfgSymbols => exact inv_of_reserved h rfl { hr with cfgSymbols := inMask_and v _ }
  | cfgSymsize => exact inv_of_reserved h rfl { hr with cfgSymsize := inMask_and v _ }
  | cfgDensity => exact inv_of_reserved h rfl { hr with cfgDensity := inMask_and v _ }
  | genSeed | plen => exact { h with }
  | id | param0 | param1 | result | psize | hsize | rank | cursor | density | seedLast | acfg0 | asymbols | asymsize
  | piv _ | reserved => exact h

theorem inv_hostRegWrite {s : State} (h : Inv s) (r : Reg) (v : Word) : Inv (hostRegWrite s r v).1 := by
  obtain ⟨_, _, hw⟩ | ⟨_, _, _, hw⟩ | ⟨_, hw⟩ := hostRegWrite_cases s r v
  · rw [hw]
    exact inv_of_reserved h rfl
      { h.reservedOk with errflags := h.reservedOk.errflags.or (rfl : InMask 0x40#32 errflagsMask) }
  · rw [hw]; exact h
  · rw [hw]; exact inv_regWrite h v r

theorem inv_pokeByte {s : State} (h : Inv s) (addr : Nat) (b : Byte) : Inv (pokeByte s addr b) := by
  obtain hw | ⟨a, _, ha, hw⟩ | ⟨a, _, ha, hw⟩ := pokeByte_cases s addr b
  · rw [hw]; exact h
  · have hm : MemoriesOk { s with pbuf := s.pbuf.write a b } :=
      { h.memories with pbuf := h.memories.pbuf.write (decide_eq_true ha) b }
    rw [hw]
    exact { h with canonical := hm.canonical, bounded := hm.bounded }
  · have hm : MemoriesOk { s with blk := s.blk.write a b } :=
      { h.memories with blk := h.memories.blk.write (decide_eq_true ha) b }
    rw [hw]
    exact { h with canonical := hm.canonical, bounded := hm.bounded }

theorem inv_pokeBytes {s : State} (h : Inv s) (addr : Nat) (bs : List Byte) : Inv (pokeBytes s addr bs) := by
  induction bs generalizing s addr with
  | nil => exact h
  | cons b bs ih => exact ih (inv_pokeByte h addr b) (addr + 1)

theorem inv_hostWrite {s : State} (h : Inv s) (addr n : Nat) (v : Word) : Inv (hostWrite s addr n v).1 := by
  unfold hostWrite
  split
  · split
    · exact inv_hostRegWrite h _ v
    · exact h
  · exact h
  · split
    · exact inv_pokeBytes h addr _
    · exact h

/-! ### Reset (R60, R300, R301) -/

theorem inv_resetTo {s : State} (hlegal : paramsLegal s.params = true) (d : PowerOn) : Inv (resetTo d s) :=
  have hm : MemoriesOk (resetTo d s) :=
    { blk := stored_ofCells (insideBlk s.params) d.blk
      pbuf := stored_ofCells (insidePbuf s.params) d.pbuf
      rows := stored_ofCells (rowsInside s.params) d.rows
      cvec := stored_nil _ }
  have hr : ReservedOk (resetTo d s) := by constructor <;> exact inMask_zero _
  { legal := hlegal, canonical := hm.canonical, bounded := hm.bounded, reserved := hr.reserved, active := nofun
    encoder := nofun, decoder := nofun, empty := fun _ => rfl, busy := rfl }

/-! ### Every step -/

theorem hostTransaction_inv (size : BitVec 2) {s : State} (h : Inv s) {act : Nat → State × HostResp}
    (hact : ∀ n, Inv (act n).1) : Yields Inv (hostTransaction size s act) := by
  obtain ⟨_, ht⟩ | ⟨_, _, ht⟩ | ⟨n, _, _, ht⟩ := hostTransaction_cases (size := size) (s := s) (act := act) rfl
  · rw [ht]; exact yields_next.2 { h with }
  · rw [ht]; exact yields_next.2 { h with }
  · rw [ht]; exact yields_next.2 { hact n with }

theorem outsideEvent_inv (e : Event) {s : State} (h : Inv s) : Yields Inv (outsideEvent e s) := by
  cases e with
  | read addr size => exact hostTransaction_inv size h fun _ => h
  | write addr size data => exact hostTransaction_inv size h fun n => inv_hostWrite h addr.toNat n data
  | engine => exact yields_next.2 h
  | offer w => exact yields_next.2 (inv_draws h _)
  | rstRise d => exact yields_next.2 (inv_resetTo h.legal d)
  | rstFall => exact yields_next.2 { h with }

theorem inv_inbox {s : State} (h : Inv s) (rest : List Event) : Inv { s with inbox := rest } :=
  { h with }

/-- Settles O10: by the three kinds of step; each command, host write and reset is looked at for itself. -/
theorem stepKeepsInv : Obligations.StepKeepsInv := by
  intro s t h hstep
  obtain ⟨_, ht⟩ | ⟨rest, _, ht⟩ | ⟨e, rest, _, _, ht⟩ := step_cases hstep
  · exact engineTurn_inv h t ht.symm
  · exact engineTurn_inv (inv_inbox h rest) t ht.symm
  · exact outsideEvent_inv e (inv_inbox h rest) t ht.symm

end Sys2Proof.Machine

namespace Sys2Proof.Machine

open Sys2Proof

/-! ## The held rows in row-echelon form (spec/10_state R49, R58, R59)

### Vectors of field elements -/

/-- Every entry of a vector is an element of F, also beyond its end, where it reads 0. -/
def IsOver (F : Field) (v : List Byte) : Prop := ∀ c, F.holds (v.getD c 0#8) = true

theorem isOver_of_forall_mem {F : Field} {v : List Byte} (h : ∀ x ∈ v, F.holds x = true) : IsOver F v := by
  intro c
  by_cases hc : c < v.length
  · rw [List.getD_eq_getElem _ _ hc]
    exact h _ (List.getElem_mem hc)
  · rw [List.getD_eq_default _ _ (by omega)]
    exact F.holds_zero

theorem holds_ofNat {F : Field} {n : Nat} (h : n < F.size) : F.holds (BitVec.ofNat 8 n) = true :=
  decide_eq_true ((Nat.mod_le n _).trans_lt h)

theorem Field.two_le_size (F : Field) : 2 ≤ F.size := by cases F <;> decide

theorem holds_sparseEntry (F : Field) (d u w : Nat) : F.holds (sparseEntry F d u w) = true := by
  have hq := F.two_le_size
  unfold sparseEntry
  split
  · have hmod := Nat.mod_lt w (show 0 < F.size - 1 by omega)
    exact holds_ofNat (by omega)
  · exact F.holds_zero

theorem holds_of_mem_unitVec (F : Field) {k i : Nat} {x : Byte} (hx : x ∈ unitVec k i) : F.holds x = true := by
  obtain ⟨c, _, rfl⟩ := List.mem_map.1 hx
  split
  · exact F.holds_one
  · exact F.holds_zero

theorem holds_of_mem_unpackDense {F : Field} {h : List Byte} {k : Nat} {x : Byte} (hx : x ∈ unpackDense F h k) :
    F.holds x = true := by
  obtain ⟨i, _, rfl⟩ := List.mem_map.1 hx
  exact holds_ofNat (Nat.mod_lt _ (by have := F.two_le_size; omega))

theorem holds_of_mem_sparseAttempt {F : Field} {d n : Nat} {s : Word} {x : Byte} (hx : x ∈ sparseAttempt F d n s) :
    F.holds x = true := by
  induction n generalizing s with
  | zero => cases hx
  | succ n ih =>
    obtain rfl | hx := List.mem_cons.1 hx
    · exact holds_sparseEntry F d _ _
    · exact ih hx

theorem holds_of_mem_expandFrom {F : Field} {d k seed n : Nat} {s : Word} {x : Byte}
    (hx : x ∈ expandFrom F d k seed n s) : F.holds x = true := by
  induction n generalizing s with
  | zero => exact holds_of_mem_unitVec F hx
  | succ n ih =>
    unfold expandFrom at hx
    split at hx
    · exact holds_of_mem_sparseAttempt hx
    · exact ih hx

/-- A parsed vector is a unit vector, an unpacked one or an expanded one (R259). -/
theorem parseVector_cases {p : Params} {F : Field} {fmt : BitVec 2} {k : Nat} {h v : List Byte}
    (hp : parseVector p F fmt k h = some v) :
    (∃ i, v = unitVec k i) ∨ v = unpackDense F h k ∨ ∃ seed d, v = expand p seed d k F := by
  unfold parseVector at hp
  split at hp
  · cases hp
  split at hp
  · split at hp
    · cases hp
    · exact .inl ⟨_, (Option.some.inj hp).symm⟩
  split at hp
  · split at hp
    · cases hp
    · exact .inr (.inl (Option.some.inj hp).symm)
  split at hp
  · split at hp
    · cases hp
    split at hp
    · exact .inr (.inr ⟨_, _, (Option.some.inj hp).symm⟩)
    · cases hp
  · cases hp

theorem isOver_parseVector {p : Params} {F : Field} {fmt : BitVec 2} {k : Nat} {h v : List Byte}
    (hp : parseVector p F fmt k h = some v) : IsOver F v := by
  refine isOver_of_forall_mem fun x hx => ?_
  obtain ⟨i, rfl⟩ | rfl | ⟨seed, d, rfl⟩ := parseVector_cases hp
  · exact holds_of_mem_unitVec F hx
  · exact holds_of_mem_unpackDense hx
  · exact holds_of_mem_expandFrom hx

/-! ### Sums -/

theorem xorSum_succ (n : Nat) (f : Nat → Byte) : xorSum (n + 1) f = xorSum n f ^^^ f n := by
  simp [xorSum, List.range_succ]

theorem xorSum_eq_zero {n : Nat} {f : Nat → Byte} (h : ∀ j < n, f j = 0#8) : xorSum n f = 0#8 := by
  induction n with
  | zero => rfl
  | succ n ih => rw [xorSum_succ, ih fun j hj => h j (by omega), h n (by omega)]; rfl

theorem xorSum_eq_single {n r : Nat} {f : Nat → Byte} (hr : r < n) (h : ∀ j < n, j ≠ r → f j = 0#8) :
    xorSum n f = f r := by
  induction n with
  | zero => omega
  | succ n ih =>
    rw [xorSum_succ]
    obtain rfl | hlt : r = n ∨ r < n := by omega
    · rw [xorSum_eq_zero fun j hj => h j (by omega) (by omega), BitVec.zero_xor]
    · rw [ih hlt fun j hj => h j (by omega), h n (by omega) (by omega), BitVec.xor_zero]

theorem holds_xorSum {F : Field} {n : Nat} {f : Nat → Byte} (h : ∀ j < n, F.holds (f j) = true) :
    F.holds (xorSum n f) = true := by
  induction n with
  | zero => exact F.holds_zero
  | succ n ih => rw [xorSum_succ]; exact Field.holds_xor (ih fun j hj => h j (by omega)) (h n (by omega))

/-! ### Forward elimination (R225, R226) -/

section

variable {s : State} (hlegal : paramsLegal s.params = true) (hr : Rref s)

theorem getD_rowVec (s : State) {r c : Nat} (hc : c < s.k) : (rowVec s.rows s.k r).getD c 0#8 = entry s r c :=
  Memory.getD_readRun _ _ _ _ hc _

include hlegal hr

/-- What elimination with row j takes off entry c of a vector. -/
theorem getD_eliminateWith {x : Scratch} (hx : x.v.length = s.k) {j c : Nat} (hj : j < s.k) (hc : c < s.k) :
    (eliminateWith s.params s.field s.k s.symSize s.piv ⟨s.rows, s.blk⟩ x j).v.getD c 0#8
      = x.v.getD c 0#8 ^^^ if pivHeld s.piv j then mulF s.params s.field (x.v.getD j 0#8) (entry s j c) else 0#8 := by
  unfold eliminateWith
  cases hp : pivHeld s.piv j with
  | false => simp
  | true =>
    by_cases hz : x.v.getD j 0#8 = 0#8
    · rw [hz, zero_mulF hlegal (hr.elements j c ⟨hj, hp⟩ hc)]
      simp
    · simp only [Bool.true_and, bne_iff_ne, ne_eq, hz, not_false_eq_true, if_true]
      rw [getD_xorVec _ _ _ (by omega) (by simpa using hc), getD_scaleVec _ _ _ _ _ (by simpa using hc),
        getD_rowVec s hc]

variable {v : List Byte} (hlen : v.length = s.k) (hv : IsOver s.field v)

include hlen hv

/-- Elimination with the rows below n, as one sum: no row changes the entry of a later held column. -/
theorem getD_eliminate_prefix {n : Nat} (hn : n ≤ s.k) :
    let x := (List.range n).foldl (eliminateWith s.params s.field s.k s.symSize s.piv ⟨s.rows, s.blk⟩) (loadScratch v s)
    x.v.length = s.k ∧ ∀ c < s.k, x.v.getD c 0#8 = v.getD c 0#8 ^^^ xorSum n (fun j =>
      if pivHeld s.piv j then mulF s.params s.field (v.getD j 0#8) (entry s j c) else 0#8) := by
  induction n with
  | zero => exact ⟨hlen, fun c _ => (BitVec.xor_zero).symm⟩
  | succ n ih =>
    obtain ⟨hxlen, hx⟩ := ih (by omega)
    simp only [List.range_succ, List.foldl_append, List.foldl_cons, List.foldl_nil]
    set x := (List.range n).foldl (eliminateWith s.params s.field s.k s.symSize s.piv ⟨s.rows, s.blk⟩) (loadScratch v s)
    refine ⟨?_, fun c hc => ?_⟩
    · unfold eliminateWith
      split <;> simp [hxlen]
    rw [getD_eliminateWith hlegal hr hxlen hn hc, hx c hc, xorSum_succ, BitVec.xor_assoc]
    congr 2
    cases hp : pivHeld s.piv n with
    | false => rfl
    | true =>
      have hsame : x.v.getD n 0#8 = v.getD n 0#8 := by
        rw [hx n hn, xorSum_eq_zero fun j hj => ?_, BitVec.xor_zero]
        cases hpj : pivHeld s.piv j with
        | false => rfl
        | true =>
          rw [if_pos rfl, hr.zeroAtPivots j n ⟨by omega, hpj⟩ ⟨hn, hp⟩ (by omega)]
          exact mulF_zero hlegal (hv j)
      rw [hsame]

/-- The reduced vector is the residue after elimination with the held rows (R226). -/
theorem getD_reducedRow {c : Nat} (hc : c < s.k) : (reducedRow v s).v.getD c 0#8 = residueVec s v c :=
  (getD_eliminate_prefix hlegal hr hlen hv le_rfl).2 c hc

omit hlen

/-- The reduced vector has no entry at a held column (R226). -/
theorem residueVec_held {r : Nat} (hh : held s r) : residueVec s v r = 0#8 := by
  obtain ⟨hlt, hp⟩ := hh
  unfold residueVec
  rw [xorSum_eq_single hlt fun j hj hne => ?_]
  · rw [if_pos hp, hr.pivotOne r ⟨hlt, hp⟩, mulF_one hlegal (hv r), BitVec.xor_self]
  · cases hpj : pivHeld s.piv j with
    | false => rfl
    | true =>
      rw [if_pos rfl, hr.zeroAtPivots j r ⟨hj, hpj⟩ ⟨hlt, hp⟩ hne.symm]
      exact mulF_zero hlegal (hv j)

theorem holds_residueVec {c : Nat} (hc : c < s.k) : s.field.holds (residueVec s v c) = true := by
  refine Field.holds_xor (hv c) (holds_xorSum fun j hj => ?_)
  split
  · next hp => exact holds_mulF hlegal (hv j) (hr.elements j c ⟨hj, hp⟩ hc)
  · exact s.field.holds_zero

end

/-! ### Normalization (R227) -/

theorem leading_ne_zero {v : List Byte} (h : nonzero v = true) : v.getD (leading v) 0#8 ≠ 0#8 := by
  rw [List.getD_eq_getElem _ _ (leading_lt h)]
  exact bne_iff_ne.1 (List.findIdx_getElem (w := leading_lt h))

theorem getD_of_lt_leading {v : List Byte} {c : Nat} (hc : c < leading v) : v.getD c 0#8 = 0#8 := by
  rw [List.getD_eq_getElem _ _ (hc.trans_le List.findIdx_le_length)]
  simpa using List.not_of_lt_findIdx hc

theorem getD_normalize (p : Params) (F : Field) {x : Scratch} {c : Nat} (hc : c < x.v.length) :
    (normalize p F x).v.getD c 0#8 = mulF p F (invF p F (x.v.getD (leading x.v) 0#8)) (x.v.getD c 0#8) :=
  getD_scaleVec p F _ _ c hc

/-- The row `x` can become pivot row `pcol` beside the held rows of `s`. -/
structure PivotRow (s : State) (pcol : Nat) (x : Scratch) : Prop where
  length : x.v.length = s.k
  lt : pcol < s.k
  pivotOne : x.v.getD pcol 0#8 = 1#8
  zeroBefore : ∀ c < pcol, x.v.getD c 0#8 = 0#8
  zeroAtHeld : ∀ r, held s r → x.v.getD r 0#8 = 0#8
  elements : ∀ c < s.k, s.field.holds (x.v.getD c 0#8) = true

/-- A row that is not zero, and zero at the held columns, is a pivot row once normalized. -/
theorem pivotRow_normalize {s : State} (hlegal : paramsLegal s.params = true) {x : Scratch} (hlen : x.v.length = s.k)
    (hx : ∀ c < s.k, s.field.holds (x.v.getD c 0#8) = true) (hheld : ∀ r, held s r → x.v.getD r 0#8 = 0#8)
    (hne : nonzero x.v = true) : PivotRow s (leading x.v) (normalize s.params s.field x) := by
  have hlt : leading x.v < s.k := hlen ▸ leading_lt hne
  have hlead := hx _ hlt
  have hinv := holds_invF hlegal hlead
  have hget : ∀ c < s.k, _ := fun c hc => getD_normalize s.params s.field (hlen ▸ hc)
  refine ⟨by simp [normalize, hlen], hlt, ?_, fun c hc => ?_, fun r hh => ?_, fun c hc => ?_⟩
  · rw [hget _ hlt]
    exact invF_mulF hlegal hlead (leading_ne_zero hne)
  · rw [hget c (hc.trans hlt), getD_of_lt_leading hc]
    exact mulF_zero hlegal hinv
  · rw [hget r hh.1, hheld r hh]
    exact mulF_zero hlegal hinv
  · rw [hget c hc]
    exact holds_mulF hlegal hinv (hx c hc)

/-! ### Back-substitution and the new row (R227, R228) -/

/-- Rows lie apart: a row written leaves the entries of every other row. -/
theorem read_writeRow (m : Memory) {r r' c : Nat} {v : List Byte} (hv : v.length ≤ 256) (hc : c < v.length) :
    (m.writeRun (rowAt r) v).read (rowAt r' + c) = if r' = r then v.getD c 0#8 else m.read (rowAt r' + c) := by
  rw [Memory.read_writeRun]
  unfold rowAt
  by_cases hrr : r' = r
  · subst hrr
    simp [hc]
  · rw [if_neg (by omega), if_neg hrr]

/-- What back-substitution leaves of entry c of row r, where r is held. -/
def substituted (s : State) (pcol : Nat) (x : Scratch) (r c : Nat) : Byte :=
  entry s r c ^^^ mulF s.params s.field (entry s r pcol) (x.v.getD c 0#8)

section

variable {s : State} (hlegal : paramsLegal s.params = true) (hk : s.k ≤ 256) {pcol : Nat} {x : Scratch}
  (hx : PivotRow s pcol x)

include hlegal hk hx

/-- Back-substitution in row n, which is as in `s`, changes no other row; with nothing in the pivot column it changes nothing. -/
theorem read_backSubstRow {m : Held} {n : Nat} (hrow : ∀ c < s.k, m.rows.read (rowAt n + c) = entry s n c) {r c : Nat}
    (hc : c < s.k) :
    (backSubstRow s.params s.field s.k s.symSize s.piv pcol x m n).rows.read (rowAt r + c)
      = if r = n ∧ pivHeld s.piv n = true then substituted s pcol x n c else m.rows.read (rowAt r + c) := by
  unfold backSubstRow
  rw [hrow pcol hx.lt]
  cases hp : pivHeld s.piv n with
  | false => simp
  | true =>
    by_cases hz : entry s n pcol = 0#8
    · by_cases hrn : r = n
      · subst hrn
        rw [substituted, hz, zero_mulF hlegal (hx.elements c hc)]
        simp [hrow c hc]
      · simp [hz, hrn]
    · have hlen : (xorVec (rowVec m.rows s.k n) (scaleVec s.params s.field (entry s n pcol) x.v)).length = s.k := by
        simp [hx.length]
      rw [if_pos (by simp [hz]), read_writeRow _ (hlen.trans_le hk) (hlen.symm ▸ hc)]
      by_cases hrn : r = n
      · rw [if_pos hrn, if_pos ⟨hrn, rfl⟩, getD_xorVec _ _ _ (by simpa using hc) (by simpa [hx.length] using hc),
          getD_scaleVec _ _ _ _ _ (by simpa [hx.length] using hc), rowVec, Memory.getD_readRun _ _ _ _ hc, hrow c hc]
        rfl
      · rw [if_neg hrn, if_neg fun h => hrn h.1]

/-- Back-substitution with the rows below n takes the pivot column out of each held one of them. -/
theorem read_backSubst_prefix {n : Nat} {r c : Nat} (hc : c < s.k) :
    ((List.range n).foldl (backSubstRow s.params s.field s.k s.symSize s.piv pcol x) ⟨s.rows, s.blk⟩).rows.read
        (rowAt r + c)
      = if r < n ∧ pivHeld s.piv r = true then substituted s pcol x r c else entry s r c := by
  induction n generalizing r c with
  | zero => simp [entry]
  | succ n ih =>
    simp only [List.range_succ, List.foldl_append, List.foldl_cons, List.foldl_nil]
    rw [read_backSubstRow hlegal hk hx (fun c hc => by rw [ih hc, if_neg (by omega)]) hc, ih hc]
    by_cases hrn : r = n
    · subst hrn
      simp
    · have hlt : r < n + 1 ↔ r < n := by omega
      simp [hrn, hlt]

/-- The rows after an innovative read: the new pivot row, the held rows without its column, the others untouched. -/
theorem entry_readInnovative (v : List Byte) {r c : Nat} (hrk : r < s.k) (hc : c < s.k) :
    entry (readInnovative v pcol x s) r c
      = if r = pcol then x.v.getD c 0#8
        else if pivHeld s.piv r = true then substituted s pcol x r c else entry s r c := by
  have hwrite := read_writeRow (backSubst s.params s.field s.k s.symSize s.piv pcol x ⟨s.rows, s.blk⟩).rows
    (r := pcol) (r' := r) (hx.length.trans_le hk) (hx.length.symm ▸ hc)
  have hsubst : (backSubst s.params s.field s.k s.symSize s.piv pcol x ⟨s.rows, s.blk⟩).rows.read (rowAt r + c)
      = if pivHeld s.piv r = true then substituted s pcol x r c else entry s r c := by
    have hall := read_backSubst_prefix hlegal hk hx (n := s.k) (r := r) hc
    simp only [hrk, true_and] at hall
    exact hall
  rw [← hsubst]
  exact hwrite

end

/-! ### The held pivots (R50) -/

theorem pivHeld_pivSet (piv : BitVec 256) {pcol : Nat} (hp : pcol < 256) (r : Nat) :
    pivHeld (pivSet piv pcol) r = (pivHeld piv r || decide (r = pcol)) := by
  unfold pivHeld pivSet
  rw [BitVec.getLsbD_or, BitVec.getLsbD_shiftLeft, BitVec.getLsbD_one]
  congr 1
  simp only [← Bool.decide_and, ← decide_not]
  exact decide_eq_decide.2 (by omega)

theorem pivCount_succ (piv : BitVec 256) (n : Nat) :
    pivCount piv (n + 1) = pivCount piv n + if pivHeld piv n = true then 1 else 0 := by
  unfold pivCount
  rw [List.range_succ, List.filter_append, List.length_append]
  cases hp : pivHeld piv n <;> simp [hp]

/-- A pivot that was not held counts one. -/
theorem pivCount_pivSet {piv : BitVec 256} {pcol : Nat} (hp : pcol < 256) (hfree : pivHeld piv pcol = false) (n : Nat) :
    pivCount (pivSet piv pcol) n = pivCount piv n + if pcol < n then 1 else 0 := by
  induction n with
  | zero => rfl
  | succ n ih =>
    rw [pivCount_succ, pivCount_succ, ih, pivHeld_pivSet piv hp]
    by_cases hn : n = pcol
    · subst hn
      simp [hfree]
    · have hlt : pcol < n + 1 ↔ pcol < n := by omega
      simp only [hn, decide_false, Bool.or_false, hlt]
      omega

theorem PivotRow.not_held {s : State} {pcol : Nat} {x : Scratch} (hx : PivotRow s pcol x) : pivHeld s.piv pcol = false := by
  by_contra hp
  have hzero := hx.zeroAtHeld pcol ⟨hx.lt, by simpa using hp⟩
  rw [hx.pivotOne] at hzero
  cases hzero

/-! ### An innovative read keeps the row form -/

theorem held_readInnovative {s : State} (hk : s.k ≤ 256) {v : List Byte} {pcol : Nat} {x : Scratch} (hx : PivotRow s pcol x)
    {r : Nat} : held (readInnovative v pcol x s) r ↔ held s r ∨ r = pcol := by
  have hlt := hx.lt
  have hkeep : (readInnovative v pcol x s).k = s.k := rfl
  unfold held
  rw [readInnovative_piv, pivHeld_pivSet _ (hlt.trans_le hk), hkeep, Bool.or_eq_true, decide_eq_true_eq, and_or_left,
    and_iff_right_of_imp (fun h : r = pcol => h ▸ hlt)]

theorem rref_readInnovative {s : State} (hlegal : paramsLegal s.params = true) (hk : s.k ≤ 256) (hr : Rref s)
    (hrank : (s.rank + 1#32).toNat = s.rank.toNat + 1) (v : List Byte) {pcol : Nat} {x : Scratch} (hx : PivotRow s pcol x) :
    Rref (readInnovative v pcol x s) := by
  have hfree := hx.not_held
  have hentry : ∀ r c, held s r → c < s.k → entry (readInnovative v pcol x s) r c = substituted s pcol x r c :=
    fun r c hh hc => by
      have hne : r ≠ pcol := fun h => by rw [← h, hh.2] at hfree; cases hfree
      rw [entry_readInnovative hlegal hk hx v hh.1 hc, if_neg hne, if_pos hh.2]
  have hnew : ∀ c < s.k, entry (readInnovative v pcol x s) pcol c = x.v.getD c 0#8 := fun c hc => by
    rw [entry_readInnovative hlegal hk hx v hx.lt hc, if_pos rfl]
  -- an entry at a column in which the new row is 0 stays
  have hkeep : ∀ r c, held s r → c < s.k → x.v.getD c 0#8 = 0#8 →
      entry (readInnovative v pcol x s) r c = entry s r c := fun r c hh hc hz => by
    rw [hentry r c hh hc, substituted, hz, mulF_zero hlegal (hr.elements r pcol hh hx.lt), BitVec.xor_zero]
  refine ⟨?_, fun r hh => ?_, fun r c hh hc => ?_, fun r r' hh hh' hne => ?_, fun r c hh hc => ?_⟩
  · rw [readInnovative_rank, hrank, hr.rankCount, readInnovative_piv]
    change _ = pivCount _ s.k
    rw [pivCount_pivSet (hx.lt.trans_le hk) hfree, if_pos hx.lt]
  · obtain hh | rfl := (held_readInnovative hk hx).1 hh
    · rw [hkeep r r hh hh.1 (hx.zeroAtHeld r hh), hr.pivotOne r hh]
    · rw [hnew r hx.lt, hx.pivotOne]
  · obtain hh | rfl := (held_readInnovative hk hx).1 hh
    · rw [← hr.zeroBefore r c hh hc]
      have hck := hc.trans hh.1
      obtain hlt | hge := Nat.lt_or_ge pcol r
      · rw [hentry r c hh hck, substituted, hr.zeroBefore r pcol hh hlt, zero_mulF hlegal (hx.elements c hck),
          BitVec.xor_zero]
      · exact hkeep r c hh hck (hx.zeroBefore c (by omega))
    · rw [hnew c (hc.trans hx.lt), hx.zeroBefore c hc]
  · obtain hh' | rfl := (held_readInnovative hk hx).1 hh'
    · have hz := hx.zeroAtHeld r' hh'
      obtain hh | rfl := (held_readInnovative hk hx).1 hh
      · rw [hkeep r r' hh hh'.1 hz, hr.zeroAtPivots r r' hh hh' hne]
      · rw [hnew r' hh'.1, hz]
    · obtain hh | rfl := (held_readInnovative hk hx).1 hh
      · rw [hentry r r' hh hx.lt, substituted, hx.pivotOne, mulF_one hlegal (hr.elements r r' hh hx.lt), BitVec.xor_self]
      · exact absurd rfl hne
  · change s.field.holds _ = true
    obtain hh | rfl := (held_readInnovative hk hx).1 hh
    · rw [hentry r c hh hc]
      exact Field.holds_xor (hr.elements r c hh hc) (holds_mulF hlegal (hr.elements r pcol hh hx.lt) (hx.elements c hc))
    · rw [hnew c hc]
      exact hx.elements c hc

/-! ### What the row form speaks of -/

/-- `t` has the rows of `s`, and their pivots, count, field and size. -/
structure RowFrame (s t : State) : Prop where
  rows : t.rows = s.rows
  piv : t.piv = s.piv
  rank : t.rank = s.rank
  acfg0 : t.acfg0 = s.acfg0
  asymbols : t.asymbols = s.asymbols

theorem rowFrame_refl (s : State) : RowFrame s s := by constructor <;> rfl

theorem rowFrame_complete (e : ErrCode) (s : State) : RowFrame s (complete e s) := by constructor <;> rfl

theorem Rref.of_frame {s t : State} (h : Rref s) (hf : RowFrame s t) : Rref t := by
  obtain ⟨hrows, hpiv, hrank, hacfg, hsym⟩ := hf
  have hk : t.k = s.k := by rw [State.k, hsym]; rfl
  have hF : t.field = s.field := by rw [State.field, hacfg]; rfl
  have hheld : ∀ r, held t r ↔ held s r := fun r => by rw [held, held, hk, hpiv]
  have hentry : ∀ r c, entry t r c = entry s r c := fun r c => by rw [entry, entry, hrows]
  constructor
  · rw [hrank, hpiv, hk, h.rankCount]
  · simpa only [hheld, hentry] using h.pivotOne
  · simpa only [hheld, hentry] using h.zeroBefore
  · simpa only [hheld, hentry] using h.zeroAtPivots
  · simpa only [hheld, hentry, hk, hF] using h.elements

theorem Rref.complete {s : State} (h : Rref s) (e : ErrCode) : Rref (complete e s) :=
  h.of_frame (rowFrame_complete e s)

/-- Without a held row there is nothing to say. -/
theorem rref_of_empty {s : State} (hrank : s.rank = 0) (hpiv : s.piv = 0) : Rref s := by
  have hnone : ∀ r, ¬ held s r := fun r hh => by
    have hp := hh.2
    rw [hpiv, pivHeld] at hp
    simp at hp
  have hcount : pivCount 0 s.k = 0 := by simp [pivCount, pivHeld]
  exact ⟨by rw [hrank, hpiv, hcount]; rfl, fun r hh => absurd hh (hnone r), fun r _ hh => absurd hh (hnone r),
    fun r _ hh => absurd hh (hnone r), fun r _ hh => absurd hh (hnone r)⟩

/-! ### Every command but INIT and DEC.READ leaves the held rows alone (R91) -/

theorem execGfAdd_rowFrame (fld : BitVec 2) (a b : Byte) (s : State) : Yields (RowFrame s) (execGfAdd fld a b s) :=
  yields_withRange (fun _ => rowFrame_complete _ s) fun _ => yields_finish.2 (by constructor <;> rfl)

theorem execGfMul_rowFrame (fld : BitVec 2) (a b : Byte) (s : State) : Yields (RowFrame s) (execGfMul fld a b s) :=
  yields_withRange (fun _ => rowFrame_complete _ s) fun _ => yields_finish.2 (by constructor <;> rfl)

theorem execGfInv_rowFrame (fld : BitVec 2) (a : Byte) (s : State) : Yields (RowFrame s) (execGfInv fld a s) := by
  refine yields_withRange (fun _ => rowFrame_complete _ s) fun _ => ?_
  split
  · exact yields_raise.2 (rowFrame_complete _ s)
  · exact yields_finish.2 (by constructor <;> rfl)

theorem execGfAxpy_rowFrame (coeff dst src : Byte) (s : State) : Yields (RowFrame s) (execGfAxpy coeff dst src s) :=
  yields_withInstance (fun _ => rowFrame_complete _ s) fun _ =>
    yields_withRange (fun _ => rowFrame_complete _ s) fun _ => yields_finish.2 (by constructor <;> rfl)

theorem execGenDense_rowFrame (s : State) : Yields (RowFrame s) (execGenDense s) :=
  yields_withInstance (fun _ => rowFrame_complete _ s) fun _ =>
    yields_withDraws (fun _ => rowFrame_refl s) fun _ => yields_finish.2 (by constructor <;> rfl)

theorem execGenSparse_rowFrame (s : State) : Yields (RowFrame s) (execGenSparse s) :=
  yields_withInstance (fun _ => rowFrame_complete _ s) fun _ => yields_finish.2 (by constructor <;> rfl)

theorem execEncWrite_rowFrame (s : State) : Yields (RowFrame s) (execEncWrite s) := by
  refine yields_withRole (rowFrame_complete _ s) fun _ _ => ?_
  split
  · exact yields_finish.2 (by constructor <;> rfl)
  split
  · exact yields_withDraws (fun _ => rowFrame_refl s) fun _ => yields_finish.2 (by constructor <;> rfl)
  · exact yields_withDraws (fun _ => rowFrame_refl s) fun _ => yields_finish.2 (by constructor <;> rfl)

theorem execEncSetdens_rowFrame (imm : BitVec 16) (s : State) : Yields (RowFrame s) (execEncSetdens imm s) := by
  refine yields_withRole (rowFrame_complete _ s) fun _ _ => ?_
  split
  · exact yields_finish.2 (by constructor <;> rfl)
  · exact yields_raise.2 (rowFrame_complete _ s)

theorem exec_rowFrame {i : Instr} (hinit : i ≠ .init) (hread : i ≠ .decRead) (s : State) :
    Yields (RowFrame s) (exec i s) := by
  cases i with
  | nop => exact yields_finish.2 (rowFrame_complete _ s)
  | init => exact absurd rfl hinit
  | gfAdd fld a b => exact execGfAdd_rowFrame fld a b s
  | gfMul fld a b => exact execGfMul_rowFrame fld a b s
  | gfInv fld a => exact execGfInv_rowFrame fld a s
  | gfAxpy coeff dst src => exact execGfAxpy_rowFrame coeff dst src s
  | genDense => exact execGenDense_rowFrame s
  | genSparse => exact execGenSparse_rowFrame s
  | encWrite => exact execEncWrite_rowFrame s
  | encSetdens imm => exact execEncSetdens_rowFrame imm s
  | decRead => exact absurd rfl hread

theorem HostFrame.rowFrame {s u : State} (h : HostFrame s u) : RowFrame s u := by
  rw [show u = _ from h]
  constructor <;> rfl

/-! ### Every step keeps the row form (R58, R59) -/

theorem execInit_rref (s : State) : Yields Rref (execInit s) := by
  unfold execInit
  split
  · exact yields_finish.2 (rref_of_empty rfl rfl)
  · exact yields_raise.2 (rref_of_empty rfl rfl)

theorem rref_readParsed {s : State} (hi : Inv s) (hc : s.configured = true) (hd : s.isDecoder = true)
    (hne : s.rank ≠ s.asymbols) (hr : Rref s) {v : List Byte} (hparsed : s.parsed = some v) : Rref (readParsed v s) := by
  have hlen : v.length = s.k := length_parseVector hparsed
  have hv : IsOver s.field v := isOver_parseVector hparsed
  unfold readParsed
  split
  · next hnz =>
    have hx := pivotRow_normalize hi.legal (length_reducedRow hlen).1
      (fun c hc => by rw [getD_reducedRow hi.legal hr hlen hv hc]; exact holds_residueVec hi.legal hr hv hc)
      (fun r hh => by rw [getD_reducedRow hi.legal hr hlen hv hh.1]; exact residueVec_held hi.legal hr hv hh) hnz
    exact rref_readInnovative hi.legal ((hi.activeOk hc).k_le.trans hi.kMax_le) hr
      ((hi.decoderOk hc hd).rank_succ hne).2 v hx
  · exact hr.of_frame (by constructor <;> rfl)

theorem execDecRead_rref {s : State} (hi : Inv s) (hr : Rref s) : Yields Rref (execDecRead s) := by
  refine yields_withRole (hr.complete _) fun hc hd => ?_
  split
  · exact yields_finish.2 (hr.of_frame (by constructor <;> rfl))
  next hne =>
  split
  · exact yields_raise.2 (hr.complete _)
  split
  · exact yields_raise.2 (hr.complete _)
  · next v hparsed => exact yields_finish.2 ((rref_readParsed hi hc hd hne hr hparsed).complete _)

theorem exec_rref (i : Instr) {s : State} (hi : Inv s) (hr : Rref s) : Yields Rref (exec i s) := by
  by_cases hinit : i = .init
  · rw [hinit]; exact execInit_rref s
  by_cases hread : i = .decRead
  · rw [hread]; exact execDecRead_rref hi hr
  · exact fun t ht => hr.of_frame (exec_rowFrame hinit hread s t ht)

theorem engineTurn_rref {s : State} (hi : Inv s) (hr : Rref s) : Yields Rref (engineTurn s) := by
  obtain ⟨_, ht⟩ | ⟨_, _, ht⟩ | ⟨_, _, _, _, _, ht⟩ | ⟨_, i, _, _, _, ht⟩ := engineTurn_cases (s := s) rfl
  · rw [ht]; exact yields_next.2 hr
  · rw [ht]; exact yields_next.2 hr
  · rw [ht]; exact yields_raise.2 (hr.complete _)
  · rw [ht]; exact exec_rref i hi hr

theorem rref_resetTo (d : PowerOn) (s : State) : Rref (resetTo d s) := rref_of_empty rfl rfl

theorem hostTransaction_rowFrame (size : BitVec 2) {s : State} {act : Nat → State × HostResp}
    (hact : ∀ n, RowFrame s (act n).1) : Yields (RowFrame s) (hostTransaction size s act) := by
  obtain ⟨_, ht⟩ | ⟨_, _, ht⟩ | ⟨n, _, _, ht⟩ := hostTransaction_cases (size := size) (s := s) (act := act) rfl
  · rw [ht]; exact yields_next.2 (by constructor <;> rfl)
  · rw [ht]; exact yields_next.2 (by constructor <;> rfl)
  · rw [ht]; exact yields_next.2 { hact n with }

theorem outsideEvent_rref (e : Event) {s : State} (hr : Rref s) : Yields Rref (outsideEvent e s) := by
  cases e with
  | read addr size => exact fun t ht => hr.of_frame (hostTransaction_rowFrame size (fun _ => rowFrame_refl s) t ht)
  | write addr size data =>
    exact fun t ht => hr.of_frame
      (hostTransaction_rowFrame size (fun n => (hostWrite_hostFrame s addr.toNat n data).rowFrame) t ht)
  | engine => exact yields_next.2 hr
  | offer w => exact yields_next.2 (hr.of_frame (by constructor <;> rfl))
  | rstRise d => exact yields_next.2 (rref_resetTo d s)
  | rstFall => exact yields_next.2 (hr.of_frame (by constructor <;> rfl))

/-- Settles O11: only INIT, reset and an innovative DEC.READ touch the held rows; the first two leave none, and the third adds a
row that elimination has made zero at every held column and normalization has given a leading 1. -/
theorem stepKeepsRref : Obligations.StepKeepsRref := by
  intro s t hi hr hstep
  have hinbox : ∀ rest, Rref { s with inbox := rest } := fun rest => hr.of_frame (by constructor <;> rfl)
  obtain ⟨_, ht⟩ | ⟨rest, _, ht⟩ | ⟨e, rest, _, _, ht⟩ := step_cases hstep
  · exact engineTurn_rref hi hr t ht.symm
  · exact engineTurn_rref (inv_inbox hi rest) (hinbox rest) t ht.symm
  · exact outsideEvent_rref e (hinbox rest) t ht.symm

end Sys2Proof.Machine

namespace Sys2Proof.Machine

open Sys2Proof

/-! ## Reset and the complete decoder (spec/10_state R58, R60; spec/44_decoder R236) -/

theorem paramsLegal_defaults : paramsLegal Config.defaults = true := by decide +kernel

theorem inv_reset : Inv State.reset :=
  { legal := paramsLegal_defaults, canonical := rfl, bounded := rfl, reserved := rfl, active := nofun
    encoder := nofun, decoder := nofun, empty := fun _ => rfl, busy := rfl }

/-- Settles O9: reset leaves empty or drawn memories, registers 0 and no held row. -/
theorem resetSatisfiesInv : Obligations.ResetSatisfiesInv :=
  ⟨⟨inv_reset, rref_of_empty rfl rfl⟩, fun s d hlegal => ⟨inv_resetTo hlegal d, rref_resetTo d s⟩⟩

theorem pivCount_eq_iff {piv : BitVec 256} {k : Nat} : pivCount piv k = k ↔ ∀ r < k, pivHeld piv r = true := by
  have hlen := List.length_filter_eq_length_iff (p := pivHeld piv) (l := List.range k)
  simpa [pivCount] using hlen

/-- Settles O47: with RANK = k every row is held, so every column is a pivot column. -/
theorem completeDecoderHasIdentityRows : Obligations.CompleteDecoderHasIdentityRows := by
  intro s _ hr hcomplete r c hrk hck
  have hrank : s.rank = s.asymbols := by
    simp only [State.complete, Bool.and_eq_true, beq_iff_eq] at hcomplete
    exact hcomplete.2
  have hall : ∀ r < s.k, pivHeld s.piv r = true :=
    pivCount_eq_iff.1 (by rw [← hr.rankCount, hrank]; rfl)
  refine ⟨hall r hrk, ?_⟩
  split
  · next hrc => exact hrc ▸ hr.pivotOne r ⟨hrk, hall r hrk⟩
  · next hrc => exact hr.zeroAtPivots r c ⟨hrk, hall r hrk⟩ ⟨hck, hall c hck⟩ (Ne.symm hrc)

/-! ### The reset table (R60, R300, R301) -/

theorem regRead_reset {r : Reg} (hid : r ≠ .id) (h0 : r ≠ .param0) (h1 : r ≠ .param1) : regRead State.reset r = 0#32 := by
  cases r with
  | id => exact absurd rfl hid
  | param0 => exact absurd rfl h0
  | param1 => exact absurd rfl h1
  | status => decide
  | piv n => simp [regRead, pivWord, State.reset]
  | _ => rfl

/-- But for the identification registers, which show the build, a reset unit reads as State.reset. -/
theorem regRead_resetTo (d : PowerOn) (s : State) {r : Reg} (h0 : r ≠ .param0) (h1 : r ≠ .param1) :
    regRead (resetTo d s) r = regRead State.reset r := by
  cases r with
  | param0 => exact absurd rfl h0
  | param1 => exact absurd rfl h1
  | _ => rfl

/-- While rst = 1 a host transaction has no effect and no answer, and rst falls alone (R300, R302). -/
theorem step_of_rst {s : State} (hrst : s.rst = true) (addr : BitVec 25) (size : BitVec 2) (v : Word) (rest : List Event) :
    (s.inbox = .read addr size :: rest ∨ s.inbox = .write addr size v :: rest →
        step s = .next { s with inbox := rest, resp := none })
      ∧ (s.inbox = .engine :: rest → step s = .next { s with inbox := rest })
      ∧ (s.inbox = [] → step s = .next s)
      ∧ (s.inbox = .rstFall :: rest → step s = .next { s with inbox := rest, rst := false }) := by
  refine ⟨?_, fun h => ?_, fun h => ?_, fun h => ?_⟩
  · rintro (h | h) <;> rw [step_of_outside h nofun] <;> exact hostTransaction_of_reset _ hrst
  · rw [step_of_engine h, engineTurn_of_reset (s := { s with inbox := rest }) hrst]
  · rw [step_of_nil h, engineTurn_of_reset hrst]
  · rw [step_of_outside h nofun]
    rfl

/-- Settles O8: the reset edge is `resetTo`, whose registers are those of State.reset. -/
theorem resetLeavesTheResetTable : Obligations.ResetLeavesTheResetTable := by
  refine ⟨fun s d rest h => ⟨resetTo d { s with inbox := rest }, step_of_outside h nofun, rfl, rfl, rfl, rfl, rfl,
      fun _ => rfl, fun r hid h0 h1 => ?_, rfl, rfl, rfl, rfl, rfl⟩,
    fun r => regRead_reset, ⟨rfl, rfl, fun _ => rfl⟩, fun s addr size v rest hrst => step_of_rst hrst addr size v rest⟩
  rw [regRead_resetTo d _ h0 h1, regRead_reset hid h0 h1]

/-! ## The register page (spec/20_memory R70-R74, spec/10_state R22-R45) -/

theorem placeOf_regs {off : Nat} (h : off < 0x1000) : placeOf off = .regs off := by
  simp [placeOf, h]

theorem hostRead_regs (s : State) {off : Nat} (h : off < 0x1000) (h4 : off % 4 = 0) :
    hostRead s off 4 = okResp (regRead s (regAt off)) := by
  simp [hostRead, placeOf_regs h, regAccessOk, h4]

theorem hostWrite_regs (s : State) {off : Nat} (h : off < 0x1000) (h4 : off % 4 = 0) (v : Word) :
    hostWrite s off 4 v = hostRegWrite s (regAt off) v := by
  simp [hostWrite, placeOf_regs h, regAccessOk, h4]

theorem hostRegWrite_unlocked {s : State} {r : Reg} (h : s.pending = none ∨ writableBusy r = true) (v : Word) :
    hostRegWrite s r v = (regWrite v s r, okResp 0) := by
  obtain h | h := h <;> simp [hostRegWrite, State.busy, h]

/-- A register write that the busy lock lets through (R23, R78). -/
theorem hostWrite_unlocked {s : State} {off : Nat} {r : Reg} (h : off < 0x1000) (h4 : off % 4 = 0) (hr : regAt off = r)
    (hw : s.pending = none ∨ writableBusy r = true) (v : Word) : hostWrite s off 4 v = (regWrite v s r, okResp 0) := by
  rw [hostWrite_regs s h h4, hr, hostRegWrite_unlocked hw]

/-- The offsets of PIV0..PIV7 (R45). -/
theorem regAt_piv {n : Nat} (hn : n < 8) : regAt (0x80 + 4 * n) = .piv n := by
  rw [regAt, if_pos (by omega)]
  congr 1
  omega

/-- The offsets that the register map does not name (R22). -/
theorem regAt_reserved {off : Nat} (h : (0x05C ≤ off ∧ off < 0x080) ∨ 0x0A0 ≤ off) : regAt off = .reserved := by
  rw [regAt, if_neg (by omega)]
  exact List.getD_eq_default _ _ (by change 23 ≤ _; omega)

/-- Every word-aligned offset below the reserved ones is a named register's. -/
theorem regAt_cases {off : Nat} (h4 : off % 4 = 0) :
    regAt off = .reserved ∨ (∃ n, regAt off = .piv n) ∨ ∃ j < 23, off = 4 * j := by
  by_cases hnamed : off < 0x5C
  · exact .inr (.inr ⟨off / 4, by omega, by omega⟩)
  by_cases hpiv : 0x80 ≤ off ∧ off < 0xA0
  · exact .inr (.inl ⟨_, if_pos hpiv⟩)
  · exact .inl (regAt_reserved (by omega))

/-- The registers that ignore a write (R22, R23). -/
def readOnly : Reg → Bool
  | .ctrl | .cmd | .status | .errflags | .cfg0 | .cfgSymbols | .cfgSymsize | .cfgDensity | .genSeed | .plen => false
  | _ => true

theorem regWrite_readOnly {r : Reg} (h : readOnly r = true) (v : Word) (s : State) : regWrite v s r = s := by
  cases r with
  | ctrl | cmd | status | errflags | cfg0 | cfgSymbols | cfgSymsize | cfgDensity | genSeed | plen => cases h
  | _ => rfl

theorem regAt_readOnly {off : Nat} (h4 : off % 4 = 0)
    (hoff : off ∉ [0x0C, 0x10, 0x14, 0x18, 0x20, 0x24, 0x28, 0x2C, 0x30, 0x34]) : readOnly (regAt off) = true := by
  obtain hr | ⟨n, hr⟩ | ⟨j, hj, rfl⟩ := regAt_cases h4
  · rw [hr]; rfl
  · rw [hr]; rfl
  · have hnamed : ∀ j < 23, 4 * j ∉ [0x0C, 0x10, 0x14, 0x18, 0x20, 0x24, 0x28, 0x2C, 0x30, 0x34] →
        readOnly (regAt (4 * j)) = true := by decide
    exact hnamed j hj hoff

/-- Settles O56: such a write goes through and meets a register that ignores it. -/
theorem readOnlyRegistersIgnoreWrites : Obligations.ReadOnlyRegistersIgnoreWrites := by
  intro s off v hpend h h4 hoff
  rw [hostWrite_unlocked h h4 rfl (.inl hpend) v]
  exact ⟨regWrite_readOnly (regAt_readOnly h4 hoff) v s, rfl⟩

/-- An unlocked write of a register that holds what is written under a mask is answered OK and reads back. -/
theorem hostWrite_readBack {s : State} {off : Nat} {r : Reg} {v mask : Word} (h : off < 0x1000) (h4 : off % 4 = 0)
    (hr : regAt off = r) (hpend : s.pending = none) (hread : regRead (regWrite v s r) r = v &&& mask) :
    (hostWrite s off 4 v).2.error = false
      ∧ hostRead (hostWrite s off 4 v).1 off 4 = { rdata := v &&& mask, error := false } := by
  rw [hostWrite_unlocked h h4 hr (.inl hpend), hostRead_regs _ h h4, hr, hread]
  exact ⟨rfl, rfl⟩

/-- Settles O55: each named offset is its register's, and the busy lock lets CTRL, STATUS and ERRFLAGS through. -/
theorem registersReadBackWrites : Obligations.RegistersReadBackWrites := by
  refine ⟨fun s v hpend => ?_, fun s v => ?_, fun s off h h4 => hostRead_regs s h h4⟩
  · have hwrite : ∀ {off : Nat} {r : Reg}, off < 0x1000 → off % 4 = 0 → regAt off = r →
        (hostWrite s off 4 v).1 = regWrite v s r := fun h h4 hr => by rw [hostWrite_unlocked h h4 hr (.inl hpend)]
    refine ⟨hwrite (by decide) rfl rfl, hwrite (by decide) rfl rfl, hwrite (by decide) rfl rfl, hwrite (by decide) rfl rfl,
      hwrite (by decide) rfl rfl, hwrite (by decide) rfl rfl, fun off mask hmem => ?_⟩
    have hones : v &&& 0xFFFFFFFF#32 = v := BitVec.and_allOnes
    simp only [List.mem_cons, Prod.mk.injEq, List.not_mem_nil, or_false] at hmem
    obtain ⟨rfl, rfl⟩ | ⟨rfl, rfl⟩ | ⟨rfl, rfl⟩ | ⟨rfl, rfl⟩ | ⟨rfl, rfl⟩ | ⟨rfl, rfl⟩ | ⟨rfl, rfl⟩ :=
      hmem
    · exact hostWrite_readBack (r := .ctrl) (by decide) rfl rfl hpend rfl
    · exact hostWrite_readBack (r := .cfg0) (by decide) rfl rfl hpend rfl
    · exact hostWrite_readBack (r := .cfgSymbols) (by decide) rfl rfl hpend rfl
    · exact hostWrite_readBack (r := .cfgSymsize) (by decide) rfl rfl hpend rfl
    · exact hostWrite_readBack (r := .cfgDensity) (by decide) rfl rfl hpend rfl
    · exact hostWrite_readBack (r := .genSeed) (by decide) rfl rfl hpend hones.symm
    · exact hostWrite_readBack (r := .plen) (by decide) rfl rfl hpend hones.symm
  · rw [hostWrite_unlocked (r := .ctrl) (by decide) rfl rfl (.inr rfl),
      hostWrite_unlocked (r := .errflags) (by decide) rfl rfl (.inr rfl),
      hostWrite_unlocked (r := .status) (by decide) rfl rfl (.inr rfl)]
    exact ⟨rfl, rfl, rfl, rfl, rfl, rfl⟩

/-! ### The fields of the identification registers and of STATUS (R25, R26, R29) -/

theorem getLsbD_bitAt (b : Bool) {i j : Nat} (hj : j < 32) : (bitAt b i).getLsbD j = (b && decide (j = i)) := by
  cases b with
  | false => simp [bitAt]
  | true =>
    rw [bitAt, if_pos rfl, BitVec.getLsbD_shiftLeft, BitVec.getLsbD_one]
    simp only [← Bool.decide_and, ← decide_not, Bool.true_and]
    exact decide_eq_decide.2 (by omega)

theorem getLsbD_ofNat_shiftLeft (n i : Nat) {j : Nat} (hj : j < 32) :
    (BitVec.ofNat 32 n <<< i).getLsbD j = (decide (i ≤ j) && n.testBit (j - i)) := by
  rw [BitVec.getLsbD_shiftLeft, BitVec.getLsbD_ofNat]
  have hlt : j - i < 32 := by omega
  simp [hj, hlt, ← decide_not]

/-- Bit j of STATUS, as the sum of its fields (R29). -/
theorem getLsbD_status (s : State) {j : Nat} (hj : j < 32) :
    (regRead s (regAt 0x014)).getLsbD j =
      (s.busy && decide (j = 0) || s.done && decide (j = 1) || s.configured && decide (j = 2)
        || s.isDecoder && decide (j = 3) || s.coded && decide (j = 4) || s.complete && decide (j = 5)
        || s.unit && decide (j = 6) || decide (8 ≤ j) && s.lastRead.code.testBit (j - 8)
        || decide (12 ≤ j) && s.err.code.testBit (j - 12)) := by
  change s.status.getLsbD j = _
  simp only [State.status, BitVec.getLsbD_or, getLsbD_bitAt _ hj, getLsbD_ofNat_shiftLeft _ _ hj]

/-- A field of STATUS, bit by bit. -/
theorem extractLsb'_status (s : State) {start len : Nat} {w : BitVec len}
    (h : ∀ i < len, (regRead s (regAt 0x014)).getLsbD (start + i) = w.getLsbD i) :
    (regRead s (regAt 0x014)).extractLsb' start len = w := by
  refine BitVec.eq_of_getLsbD_eq fun i hi => ?_
  rw [BitVec.getLsbD_extractLsb', h i hi]
  simp [hi]

theorem lastRead_testBit (l : LastRead) {i : Nat} (hi : 2 ≤ i) : l.code.testBit i = false :=
  Nat.testBit_lt_two_pow ((show l.code < 2 ^ 2 by cases l <;> decide).trans_le (Nat.pow_le_pow_right two_pos hi))

theorem err_testBit (e : ErrCode) {i : Nat} (hi : 4 ≤ i) : e.code.testBit i = false :=
  Nat.testBit_lt_two_pow ((show e.code < 2 ^ 4 by cases e <;> decide).trans_le (Nat.pow_le_pow_right two_pos hi))

/-- The bits of STATUS from 8 on are those of LAST_READ at 8 and of ERR at 12. -/
theorem getLsbD_status_high (s : State) {j : Nat} (hj : j < 32) (h8 : 8 ≤ j) :
    (regRead s (regAt 0x014)).getLsbD j =
      (s.lastRead.code.testBit (j - 8) || decide (12 ≤ j) && s.err.code.testBit (j - 12)) := by
  have hlow : ∀ i < 8, j ≠ i := by omega
  rw [getLsbD_status s hj]
  simp [hlow, h8]

theorem status_flags (s : State) :
    (regRead s (regAt 0x014)).getLsbD 0 = s.pending.isSome
      ∧ (regRead s (regAt 0x014)).getLsbD 1 = s.done
      ∧ (regRead s (regAt 0x014)).getLsbD 2 = s.configured
      ∧ (regRead s (regAt 0x014)).getLsbD 3 = s.acfg0.getLsbD 8
      ∧ (regRead s (regAt 0x014)).getLsbD 4 = s.coded
      ∧ (regRead s (regAt 0x014)).getLsbD 5 = (s.configured && s.acfg0.getLsbD 8 && decide (s.rank = s.asymbols))
      ∧ (regRead s (regAt 0x014)).getLsbD 6 = s.unit
      ∧ (regRead s (regAt 0x014)).getLsbD 7 = false := by
  have hbit : ∀ j < 32, _ := fun j hj => getLsbD_status s (j := j) hj
  refine ⟨(hbit 0 (by decide)).trans ?_, (hbit 1 (by decide)).trans ?_, (hbit 2 (by decide)).trans ?_,
    (hbit 3 (by decide)).trans ?_, (hbit 4 (by decide)).trans ?_, (hbit 5 (by decide)).trans ?_,
    (hbit 6 (by decide)).trans ?_, (hbit 7 (by decide)).trans ?_⟩ <;>
  simp [State.busy, State.complete, State.isDecoder, cfgRole, beq_eq_decide]

theorem status_lastRead (s : State) :
    (regRead s (regAt 0x014)).extractLsb' 8 2 = BitVec.ofNat 2 s.lastRead.code
      ∧ (regRead s (regAt 0x014)).extractLsb' 10 2 = 0#2 := by
  refine ⟨extractLsb'_status s fun i hi => ?_, extractLsb'_status s fun i hi => ?_⟩
  · have h12 : ¬ 12 ≤ 8 + i := by omega
    rw [getLsbD_status_high s (by omega) (by omega), BitVec.getLsbD_ofNat]
    simp [hi, h12]
  · have h12 : ¬ 12 ≤ 10 + i := by omega
    rw [getLsbD_status_high s (by omega) (by omega), lastRead_testBit _ (by omega)]
    simp [h12]

theorem status_err (s : State) :
    (regRead s (regAt 0x014)).extractLsb' 12 4 = BitVec.ofNat 4 s.err.code
      ∧ (regRead s (regAt 0x014)).extractLsb' 16 16 = 0#16 := by
  refine ⟨extractLsb'_status s fun i hi => ?_, extractLsb'_status s fun i hi => ?_⟩
  · rw [getLsbD_status_high s (by omega) (by omega), lastRead_testBit _ (by omega), BitVec.getLsbD_ofNat]
    simp [hi]
  · rw [getLsbD_status_high s (by omega) (by omega), lastRead_testBit _ (by omega), err_testBit _ (by omega)]
    simp

theorem param0Word_kMax (p : Params) : (param0Word p).extractLsb' 0 16 = BitVec.ofNat 16 p.kMax :=
  BitVec.extractLsb'_append_eq_right

theorem param0Word_sMax (p : Params) : (param0Word p).extractLsb' 16 16 = BitVec.ofNat 16 p.sMax :=
  BitVec.extractLsb'_append_eq_left

theorem param1Word_fields (p : Params) :
    (param1Word p).extractLsb' 0 9 = p.poly8 ∧ (param1Word p).extractLsb' 9 7 = 0#7
      ∧ (param1Word p).extractLsb' 16 5 = p.poly4 ∧ (param1Word p).extractLsb' 21 3 = 0#3
      ∧ (param1Word p).extractLsb' 24 8 = BitVec.ofNat 8 p.rerollMax := by
  unfold param1Word
  refine ⟨BitVec.extractLsb'_append_eq_right, ?_, ?_, ?_, ?_⟩
  · rw [BitVec.extractLsb'_append_eq_of_le (by decide)]
    exact BitVec.extractLsb'_append_eq_right
  · rw [BitVec.extractLsb'_append_eq_of_le (by decide), BitVec.extractLsb'_append_eq_of_le (by decide)]
    exact BitVec.extractLsb'_append_eq_right
  · rw [BitVec.extractLsb'_append_eq_of_le (by decide), BitVec.extractLsb'_append_eq_of_le (by decide),
      BitVec.extractLsb'_append_eq_of_le (by decide)]
    exact BitVec.extractLsb'_append_eq_right
  · rw [BitVec.extractLsb'_append_eq_of_le (by decide), BitVec.extractLsb'_append_eq_of_le (by decide),
      BitVec.extractLsb'_append_eq_of_le (by decide)]
    exact BitVec.extractLsb'_append_eq_left

/-- Settles O60: the fields of the identification registers and of STATUS bit by bit, the others by their offsets. -/
theorem registerFieldsReadInTheirPlaces : Obligations.RegisterFieldsReadInTheirPlaces := by
  refine ⟨fun s hlegal => ?_, by decide, fun s => ?_, fun s n b hn hb => ?_, fun s => ?_, fun s off _ h => ?_⟩
  · obtain ⟨_, hk, _, hS, hreroll⟩ := paramsLegal_bounds hlegal
    obtain ⟨hpoly8, hgap, hpoly4, hgap', hrerollField⟩ := param1Word_fields s.params
    have hkMax : (BitVec.ofNat 16 s.params.kMax).toNat = s.params.kMax := Nat.mod_eq_of_lt (by omega)
    have hsMax : (BitVec.ofNat 16 s.params.sMax).toNat = s.params.sMax := Nat.mod_eq_of_lt (by omega)
    have hrerollMax : (BitVec.ofNat 8 s.params.rerollMax).toNat = s.params.rerollMax := Nat.mod_eq_of_lt (by omega)
    exact ⟨rfl, (congrArg BitVec.toNat (param0Word_kMax s.params)).trans hkMax,
      (congrArg BitVec.toNat (param0Word_sMax s.params)).trans hsMax, hpoly8, hgap, hpoly4, hgap',
      (congrArg BitVec.toNat hrerollField).trans hrerollMax⟩
  · obtain ⟨hbusy, hdone, hconf, hrole, hcoded, hcomplete, hunit, hgap⟩ := status_flags s
    obtain ⟨hlast, hgap'⟩ := status_lastRead s
    obtain ⟨herr, hgap''⟩ := status_err s
    refine ⟨hbusy, hdone, hconf, hrole, hcoded, hcomplete, hunit, hgap, hlast.trans ?_, hgap', herr.trans ?_, hgap''⟩
    · cases s.lastRead <;> rfl
    · cases s.err <;> rfl
  · rw [regAt_piv hn]
    simp [regRead, pivWord, hb]
  · exact ⟨rfl, rfl, rfl, rfl, rfl, rfl, rfl, rfl, rfl, rfl, rfl, rfl, rfl, rfl, rfl, rfl, rfl, rfl, rfl⟩
  · rw [regAt_reserved (h.imp_right And.left)]
    rfl

/-! ## The windows (spec/20_memory R70-R77) -/

theorem placeOf_cvec {i : Nat} (h : i < 0x100) : placeOf (0x1000 + i) = .cvec i := by
  rw [placeOf, if_neg (by omega), if_pos (by omega), Nat.add_sub_cancel_left]

theorem placeOf_rows {off : Nat} (h : off < 0x10000) : placeOf (0x10000 + off) = .rows off := by
  rw [placeOf, if_neg (by omega), if_neg (by omega), if_neg (by omega), if_pos (by omega), Nat.add_sub_cancel_left]

theorem placeOf_pbuf {a : Nat} (h : a < 0x20000) : placeOf (0x20000 + a) = .pbuf a := by
  rw [placeOf, if_neg (by omega), if_neg (by omega), if_neg (by omega), if_neg (by omega), if_pos (by omega),
    Nat.add_sub_cancel_left]

theorem placeOf_blk (a : Nat) : placeOf (0x1000000 + a) = .blk a := by
  rw [placeOf, if_neg (by omega), if_neg (by omega), if_neg (by omega), if_neg (by omega), if_neg (by omega),
    if_neg (by omega), Nat.add_sub_cancel_left]

/-- An address in a window (R70). -/
def inWindow (addr : Nat) : Prop :=
  (0x1000 ≤ addr ∧ addr < 0x1100) ∨ (0x10000 ≤ addr ∧ addr < 0x40000) ∨ 0x1000000 ≤ addr

theorem placeOf_window {addr : Nat} (h : inWindow addr) :
    (∃ i, placeOf addr = .cvec i) ∨ (∃ off, placeOf addr = .rows off) ∨ (∃ a, placeOf addr = .pbuf a)
      ∨ ∃ a, placeOf addr = .blk a := by
  obtain ⟨hlo, hhi⟩ | ⟨hlo, hhi⟩ | hlo := h
  · obtain ⟨i, rfl⟩ := Nat.exists_eq_add_of_le hlo
    exact .inl ⟨i, placeOf_cvec (by omega)⟩
  · obtain hrows | hpbuf := Nat.lt_or_ge addr 0x20000
    · obtain ⟨off, rfl⟩ := Nat.exists_eq_add_of_le hlo
      exact .inr (.inl ⟨off, placeOf_rows (by omega)⟩)
    · obtain ⟨a, rfl⟩ := Nat.exists_eq_add_of_le hpbuf
      exact .inr (.inr (.inl ⟨a, placeOf_pbuf (by omega)⟩))
  · obtain ⟨a, rfl⟩ := Nat.exists_eq_add_of_le hlo
    exact .inr (.inr (.inr ⟨a, placeOf_blk a⟩))

/-- The `n` bytes that a window shows from an address on. -/
def viewBytes (s : State) (addr n : Nat) : List Byte := (List.range n).map (fun j => viewByte s (addr + j))

/-- An aligned, unlocked window read is answered with the bytes the window shows (R72, R75, R78). -/
theorem hostRead_window {s : State} {addr n : Nat} (hpend : s.pending = none) (halign : addr % n = 0) (h : inWindow addr) :
    hostRead s addr n = okResp (lanes (viewBytes s addr n)) := by
  have hopen : windowOpen s addr n = true := by simp [windowOpen, State.busy, hpend, halign]
  obtain ⟨i, hp⟩ | ⟨off, hp⟩ | ⟨a, hp⟩ | ⟨a, hp⟩ := placeOf_window h <;>
  · unfold hostRead
    rw [hp]
    exact if_pos hopen

/-- Bit i of a little-endian word is bit i mod 8 of its byte i / 8 (R77). -/
theorem getLsbD_lanes (bs : List Byte) {i : Nat} (hi : i < 32) :
    (lanes bs).getLsbD i = (bs.getD (i / 8) 0#8).getLsbD (i % 8) := by
  induction bs generalizing i with
  | nil => simp [lanes]
  | cons b bs ih =>
    rw [lanes, BitVec.getLsbD_or, BitVec.getLsbD_shiftLeft, BitVec.getLsbD_setWidth]
    obtain hlt | hge := Nat.lt_or_ge i 8
    · simp [hi, hlt, Nat.div_eq_of_lt hlt, Nat.mod_eq_of_lt hlt]
    · obtain ⟨m, rfl⟩ := Nat.exists_eq_add_of_le hge
      have hdiv : (8 + m) / 8 = m / 8 + 1 := by omega
      have hmod : (8 + m) % 8 = m % 8 := by omega
      have hsub : 8 + m - 8 = m := by omega
      rw [hdiv, hmod, hsub, ih (by omega), BitVec.getLsbD_of_ge b (8 + m) (by omega)]
      simp [hi]

theorem lanes_lt {bs : List Byte} {n : Nat} (hlen : bs.length = n) : (lanes bs).toNat < 2 ^ (8 * n) := by
  refine Nat.lt_pow_two_of_testBit _ fun i hi => ?_
  rw [BitVec.testBit_toNat]
  obtain hlt | hge := Nat.lt_or_ge i 32
  · rw [getLsbD_lanes bs hlt, List.getD_eq_default _ _ (by omega)]
    exact BitVec.getLsbD_zero
  · exact BitVec.getLsbD_of_ge _ _ hge

theorem extractLsb'_lanes (bs : List Byte) {j : Nat} (hj : j < 4) : (lanes bs).extractLsb' (8 * j) 8 = bs.getD j 0#8 := by
  refine BitVec.eq_of_getLsbD_eq fun i hi => ?_
  rw [BitVec.getLsbD_extractLsb', getLsbD_lanes bs (by omega), show (8 * j + i) / 8 = j by omega,
    show (8 * j + i) % 8 = i by omega]
  simp [hi]

/-- The ROWS window shows the stored entry of a held row inside ROWS and left of column k (R49, R71). -/
theorem viewByte_rows (s : State) {p c : Nat} (hp : p < 256) (hc : c < 256) :
    viewByte s (0x10000 + 256 * p + c) =
      if p < s.params.kMax ∧ c < s.params.kMax ∧ pivHeld s.piv p = true ∧ c < s.k then entry s p c else 0#8 := by
  have hdiv : (256 * p + c) / 256 = p := by omega
  have hmod : (256 * p + c) % 256 = c := by omega
  rw [viewByte, Nat.add_assoc, placeOf_rows (by omega)]
  simp only [rowsView, rowsInside, hdiv, hmod, Bool.and_eq_true, decide_eq_true_eq, and_assoc]
  rfl

/-- Settles O59: the answer's lanes are the bytes of the window, and each window shows its memory. -/
theorem windowReadsShowTheMemories : Obligations.WindowReadsShowTheMemories := by
  refine ⟨fun s addr n hpend hn halign h => ?_, fun s p c hp hc => viewByte_rows s hp hc, fun s i hi => ?_,
    fun s a ha => ?_, fun s a _ => ?_⟩
  · refine ⟨_, hostRead_window hpend halign (h.imp_right (Or.imp_right And.left)), lanes_lt (by simp [viewBytes]),
      fun j hj => ?_⟩
    rw [extractLsb'_lanes _ (by omega)]
    simp [viewBytes, List.getD, hj]
  · rw [viewByte, placeOf_cvec hi]
  · rw [viewByte, placeOf_pbuf ha]
  · rw [viewByte, placeOf_blk a]

end Sys2Proof.Machine

namespace Sys2Proof.Machine

open Sys2Proof

/-! ## The host's accesses to the windows, and the busy lock (spec/20_memory R70-R81, spec/60_exceptions R279, R280)

### Refused accesses (R72, R74-R76, R78, R280) -/

/-- An access that is a bus error without effect, as a read and as a write (R72, R280). -/
def Refused (s : State) (addr n : Nat) : Prop :=
  hostRead s addr n = busError ∧ ∀ v, hostWrite s addr n v = (s, busError)

theorem placeOf_unmapped {addr : Nat} (h : (0x1100 ≤ addr ∧ addr < 0x10000) ∨ (0x40000 ≤ addr ∧ addr < 0x1000000)) :
    placeOf addr = .unmapped := by
  obtain ⟨hlo, hhi⟩ | ⟨hlo, hhi⟩ := h
  · rw [placeOf, if_neg (by omega), if_neg (by omega), if_pos hhi]
  · rw [placeOf, if_neg (by omega), if_neg (by omega), if_neg (by omega), if_neg (by omega), if_neg (by omega), if_pos hhi]

theorem refused_unmapped (s : State) {addr : Nat} (n : Nat)
    (h : (0x1100 ≤ addr ∧ addr < 0x10000) ∨ (0x40000 ≤ addr ∧ addr < 0x1000000)) : Refused s addr n := by
  simp [Refused, hostRead, hostWrite, placeOf_unmapped h]

/-- The register page takes aligned 4-byte accesses only (R74). -/
theorem refused_regs (s : State) {off n : Nat} (h : off < 0x1000) (hbad : ¬(n = 4 ∧ off % 4 = 0)) : Refused s off n := by
  have hrefuse : ¬regAccessOk off n = true := by simpa [regAccessOk] using hbad
  simp only [Refused, hostRead, hostWrite, placeOf_regs h, if_neg hrefuse, implies_true, and_self]

theorem windowOpen_iff {s : State} {addr n : Nat} : windowOpen s addr n = true ↔ s.pending = none ∧ addr % n = 0 := by
  simp [windowOpen, State.busy]

/-- Above the register page nothing answers a misaligned access, or any access while a command is pending (R75, R76, R78). -/
theorem refused_closed {s : State} {addr n : Nat} (h : 0x1000 ≤ addr) (hclosed : ¬(s.pending = none ∧ addr % n = 0)) :
    Refused s addr n := by
  have hshut : ¬windowOpen s addr n = true := fun hopen => hclosed (windowOpen_iff.1 hopen)
  by_cases hwin : inWindow addr
  · obtain ⟨i, hp⟩ | ⟨off, hp⟩ | ⟨a, hp⟩ | ⟨a, hp⟩ := placeOf_window hwin <;>
      simp only [Refused, hostRead, hostWrite, hp, if_neg hshut, implies_true, and_self]
  · unfold inWindow at hwin
    exact refused_unmapped s n (by omega)

/-- Settles O58: outside the register page's aligned words, each named access is refused by its place or by its alignment. -/
theorem refusedAccessesAreBusErrors : Obligations.RefusedAccessesAreBusErrors := by
  intro s addr n v h
  have hrefused : Refused s addr n := by
    obtain ⟨hregs, hbad⟩ | hunmapped | hunmapped | ⟨hlo, hmis⟩ := h
    · exact refused_regs s hregs hbad
    · exact refused_unmapped s n (.inl hunmapped)
    · exact refused_unmapped s n (.inr hunmapped)
    · exact refused_closed hlo fun hopen => hmis hopen.2
  obtain ⟨hread, hwrite⟩ := hrefused
  rw [hwrite]
  exact ⟨hread, rfl, rfl⟩

/-! ### The busy lock (R78, R279) -/

/-- Away from the offsets of CTRL, CMD, STATUS and ERRFLAGS, a register is locked while BUSY, and is not CMD. -/
theorem regAt_locked {off : Nat} (h4 : off % 4 = 0) (hoff : off ∉ [0x0C, 0x10, 0x14, 0x18]) :
    writableBusy (regAt off) = false ∧ regAt off ≠ .cmd := by
  obtain hr | ⟨n, hr⟩ | ⟨j, hj, rfl⟩ := regAt_cases h4
  · rw [hr]; exact ⟨rfl, nofun⟩
  · rw [hr]; exact ⟨rfl, nofun⟩
  · have hnamed : ∀ j < 23, 4 * j ∉ [0x0C, 0x10, 0x14, 0x18] →
        writableBusy (regAt (4 * j)) = false ∧ regAt (4 * j) ≠ .cmd := by decide
    exact hnamed j hj hoff

theorem hostRegWrite_locked {s : State} {r : Reg} (hbusy : s.busy = true) (hlock : writableBusy r = false) (hcmd : r ≠ .cmd)
    (v : Word) : hostRegWrite s r v = (s, busError) := by
  simp [hostRegWrite, hbusy, hlock, hcmd]

theorem hostRegWrite_cmd_busy {s : State} (hbusy : s.busy = true) (v : Word) :
    hostRegWrite s .cmd v = ({ s with errflags := flagSet s.errflags busyFlag }, busError) := by
  simp [hostRegWrite, hbusy, writableBusy]

/-- Settles O51: a register's write meets the lock of its register, every other write is refused. -/
theorem hostWritesWhileBusy : Obligations.HostWritesWhileBusy := by
  intro s w hpend
  have hbusy : s.busy = true := by rw [State.busy, hpend]; rfl
  refine ⟨fun v => ?_, fun addr n v hctrl hcmd hstatus herrflags => ?_⟩
  · have hcmd : regAt 0x10 = .cmd := rfl
    rw [hostWrite_regs s (by decide) rfl, hcmd, hostRegWrite_cmd_busy hbusy]
    exact ⟨rfl, rfl⟩
  · have hwrite : hostWrite s addr n v = (s, busError) := by
      obtain hregs | hwin := Nat.lt_or_ge addr 0x1000
      · by_cases hok : n = 4 ∧ addr % 4 = 0
        · obtain ⟨rfl, h4⟩ := hok
          obtain ⟨hlock, hne⟩ := regAt_locked (off := addr) h4 (by simp [hctrl, hcmd, hstatus, herrflags])
          rw [hostWrite_regs s hregs h4, hostRegWrite_locked hbusy hlock hne]
        · exact (refused_regs s hregs hok).2 v
      · exact (refused_closed hwin (by simp [hpend])).2 v
    rw [hwrite]
    exact ⟨rfl, rfl⟩

/-- Settles O52: the lock closes the windows and leaves register reads alone; STATUS bit 0 is BUSY. -/
theorem hostReadsWhileBusy : Obligations.HostReadsWhileBusy := by
  intro s w hpend
  refine ⟨fun addr n h => (refused_closed h (by simp [hpend])).1, fun off h h4 => hostRead_regs s h h4, ?_⟩
  exact (status_flags s).1.trans (by rw [hpend]; rfl)

/-! ### Unlocked, aligned window writes (R71, R73, R75, R79, R81) -/

/-- An aligned, unlocked window write pokes its bytes in ascending order (R73, R75, R78, R81). -/
theorem hostWrite_window {s : State} {addr n : Nat} (hpend : s.pending = none) (halign : addr % n = 0) (h : inWindow addr)
    (v : Word) : hostWrite s addr n v = (pokeBytes s addr (unlanes v n), okResp 0) := by
  have hopen : windowOpen s addr n = true := windowOpen_iff.2 ⟨hpend, halign⟩
  obtain ⟨i, hp⟩ | ⟨off, hp⟩ | ⟨a, hp⟩ | ⟨a, hp⟩ := placeOf_window h <;>
  · unfold hostWrite
    rw [hp]
    exact if_pos hopen

/-- An aligned access that starts below a word boundary ends at or below it. -/
theorem add_le_of_aligned {addr n top : Nat} (hn : n = 1 ∨ n = 2 ∨ n = 4) (halign : addr % n = 0) (htop : top % 4 = 0)
    (h : addr < top) : addr + n ≤ top := by
  obtain rfl | rfl | rfl := hn <;> omega

/-- The host addresses of the bytes of PBUF and of BLK, the memories that the host may write (R70, R71). -/
abbrev inWritable (p : Params) (addr : Nat) : Prop :=
  (0x20000 ≤ addr ∧ addr < 0x40000 ∧ addr < 0x20000 + pbufBytes p)
    ∨ (0x1000000 ≤ addr ∧ addr < 0x1000000 + blockBytes p)

theorem placeOf_eq_pbuf {addr a : Nat} : placeOf addr = .pbuf a ↔ addr = 0x20000 + a ∧ a < 0x20000 := by
  refine ⟨fun h => ?_, fun ⟨h, ha⟩ => h ▸ placeOf_pbuf ha⟩
  unfold placeOf at h
  split_ifs at h
  rw [Place.pbuf.injEq] at h
  omega

theorem placeOf_eq_blk {addr a : Nat} : placeOf addr = .blk a ↔ addr = 0x1000000 + a := by
  refine ⟨fun h => ?_, fun h => h ▸ placeOf_blk a⟩
  unfold placeOf at h
  split_ifs at h
  rw [Place.blk.injEq] at h
  omega

/-- A byte poked outside PBUF and BLK is ignored (R71, R79). -/
theorem pokeByte_outside {s : State} {addr : Nat} (h : ¬inWritable s.params addr) (b : Byte) : pokeByte s addr b = s := by
  obtain hw | ⟨a, hp, ha, _⟩ | ⟨a, hp, ha, _⟩ := pokeByte_cases s addr b
  · exact hw
  · obtain ⟨rfl, _⟩ := placeOf_eq_pbuf.1 hp
    exact absurd (.inl (by omega)) h
  · obtain rfl := placeOf_eq_blk.1 hp
    exact absurd (.inr (by omega)) h

theorem viewByte_write_pbuf (s : State) {a : Nat} (ha : a < 0x20000) (hmem : a < pbufBytes s.params) (b : Byte) (x : Nat) :
    viewByte { s with pbuf := s.pbuf.write a b } x = if x = 0x20000 + a then b else viewByte s x := by
  split_ifs with hx
  · subst hx
    simp [viewByte, placeOf_pbuf ha, hmem]
  · unfold viewByte
    split
    case h_3 y hy =>
      obtain ⟨rfl, _⟩ := placeOf_eq_pbuf.1 hy
      rw [Memory.read_write_other _ b (by omega)]
    all_goals rfl

theorem viewByte_write_blk (s : State) {a : Nat} (hmem : a < blockBytes s.params) (b : Byte) (x : Nat) :
    viewByte { s with blk := s.blk.write a b } x = if x = 0x1000000 + a then b else viewByte s x := by
  split_ifs with hx
  · subst hx
    simp [viewByte, placeOf_blk, hmem]
  · unfold viewByte
    split
    case h_4 y hy =>
      obtain rfl := placeOf_eq_blk.1 hy
      rw [Memory.read_write_other _ b (by omega)]
    all_goals rfl

/-- What the windows show after one byte was poked. -/
theorem viewByte_pokeByte (s : State) (addr : Nat) (b : Byte) (x : Nat) :
    viewByte (pokeByte s addr b) x = if x = addr ∧ inWritable s.params addr then b else viewByte s x := by
  by_cases hin : inWritable s.params addr
  · simp only [hin, and_true]
    obtain ⟨hlo, hhi, hmem⟩ | ⟨hlo, hmem⟩ := hin
    · obtain ⟨a, rfl⟩ := Nat.exists_eq_add_of_le hlo
      have ha : a < pbufBytes s.params := by omega
      have hpoke : pokeByte s (0x20000 + a) b = { s with pbuf := s.pbuf.write a b } := by
        simp only [pokeByte, placeOf_pbuf (show a < 0x20000 by omega), if_pos ha]
      rw [hpoke, viewByte_write_pbuf s (by omega) ha]
    · obtain ⟨a, rfl⟩ := Nat.exists_eq_add_of_le hlo
      have ha : a < blockBytes s.params := by omega
      have hpoke : pokeByte s (0x1000000 + a) b = { s with blk := s.blk.write a b } := by
        simp only [pokeByte, placeOf_blk, if_pos ha]
      rw [hpoke, viewByte_write_blk s ha]
  · rw [pokeByte_outside hin, if_neg fun h => hin h.2]

/-- What the windows show after a run of bytes was poked: the run's bytes where PBUF and BLK lie, the old byte elsewhere. -/
theorem viewByte_pokeBytes (s : State) (addr : Nat) (bs : List Byte) (x : Nat) :
    viewByte (pokeBytes s addr bs) x =
      if addr ≤ x ∧ x < addr + bs.length ∧ inWritable s.params x then bs.getD (x - addr) 0#8 else viewByte s x := by
  induction bs generalizing s addr with
  | nil => rw [if_neg (by simp; omega)]; rfl
  | cons b bs ih =>
    have hparams : (pokeByte s addr b).params = s.params := (pokeBytes_hostFrame s addr [b]).params
    rw [pokeBytes, ih, hparams, viewByte_pokeByte, List.length_cons]
    obtain hlt | rfl | hgt := Nat.lt_trichotomy x addr
    · rw [if_neg (by omega), if_neg (by omega), if_neg (by omega)]
    · rw [if_neg (by omega), Nat.sub_self, List.getD_cons_zero]
      exact if_congr (by omega) rfl rfl
    · rw [if_neg (c := x = addr ∧ _) (by omega), show x - addr = x - (addr + 1) + 1 by omega, List.getD_cons_succ]
      exact if_congr (by omega) rfl rfl

/-- A run of bytes poked wholly outside PBUF and BLK is ignored (R71, R79). -/
theorem pokeBytes_outside {s : State} {addr : Nat} {bs : List Byte}
    (h : ∀ x, addr ≤ x → x < addr + bs.length → ¬inWritable s.params x) : pokeBytes s addr bs = s := by
  induction bs generalizing addr with
  | nil => rfl
  | cons b bs ih =>
    rw [List.length_cons] at h
    rw [pokeBytes, pokeByte_outside (h addr (Nat.le_refl _) (by omega))]
    exact ih fun x hlo hhi => h x (by omega) (by omega)

@[simp] theorem length_unlanes (v : Word) (n : Nat) : (unlanes v n).length = n := by
  simp [unlanes]

theorem getD_unlanes (v : Word) {n j : Nat} (hj : j < n) : (unlanes v n).getD j 0#8 = v.extractLsb' (8 * j) 8 := by
  simp [unlanes, List.getD, hj]

/-- Settles O57: the write goes through, and none of its bytes lies in PBUF or BLK. -/
theorem readOnlyWindowsIgnoreWrites : Obligations.ReadOnlyWindowsIgnoreWrites := by
  intro s addr n v hpend hn halign h
  have hwin : inWindow addr := by unfold inWindow; omega
  have hbelow : addr + n ≤ 0x20000 := add_le_of_aligned hn halign rfl (by omega)
  rw [hostWrite_window hpend halign hwin]
  exact ⟨pokeBytes_outside fun x _ hx => by rw [length_unlanes] at hx; omega, rfl⟩

/-! ### Writes in the PBUF and BLK windows (R71, R73, R77, R81) -/

/-- The bytes of a word, put together again, are the word's low bits (R77). -/
theorem lanes_unlanes (v : Word) (n : Nat) :
    lanes (unlanes v n) = BitVec.ofNat 32 (v.toNat % 2 ^ (8 * n)) := by
  refine BitVec.eq_of_getLsbD_eq fun i hi => ?_
  rw [getLsbD_lanes _ hi, BitVec.getLsbD_ofNat, Nat.testBit_mod_two_pow, BitVec.testBit_toNat]
  obtain hin | hout := Nat.lt_or_ge (i / 8) n
  · rw [getD_unlanes v hin, BitVec.getLsbD_extractLsb', Nat.div_add_mod]
    simp [hi, show i % 8 < 8 by omega, show i < 8 * n by omega]
  · rw [List.getD_eq_default _ _ (by simpa using hout)]
    simp [show ¬i < 8 * n by omega]

/-- Beyond PBUF and BLK their windows show 0 (R71). -/
theorem viewByte_beyond {s : State} {x : Nat} (hwin : (0x20000 ≤ x ∧ x < 0x40000) ∨ 0x1000000 ≤ x)
    (hout : ¬inWritable s.params x) : viewByte s x = 0#8 := by
  obtain ⟨hlo, hhi⟩ | hlo := hwin
  · obtain ⟨a, rfl⟩ := Nat.exists_eq_add_of_le hlo
    simp only [viewByte, placeOf_pbuf (show a < 0x20000 by omega)]
    exact if_neg (by omega)
  · obtain ⟨a, rfl⟩ := Nat.exists_eq_add_of_le hlo
    simp only [viewByte, placeOf_blk]
    exact if_neg (by omega)

theorem pokeBytes_pending (s : State) (addr : Nat) (bs : List Byte) : (pokeBytes s addr bs).pending = s.pending := by
  rw [pokeBytes_frame]

/-- A run poked wholly inside PBUF or BLK shows whole. -/
theorem viewBytes_pokeBytes {s : State} {addr : Nat} {bs : List Byte}
    (h : ∀ x, addr ≤ x → x < addr + bs.length → inWritable s.params x) :
    viewBytes (pokeBytes s addr bs) addr bs.length = bs := by
  refine List.ext_getElem (by simp [viewBytes]) fun j _ hj => ?_
  simp only [viewBytes, List.getElem_map, List.getElem_range, viewByte_pokeBytes]
  rw [if_pos ⟨by omega, by omega, h _ (by omega) (by omega)⟩, Nat.add_sub_cancel_left, List.getD_eq_getElem _ _ hj]

/-- Settles O50: the write pokes its bytes, and what the windows show afterwards is said byte by byte. -/
theorem windowsReadBackWrites : Obligations.WindowsReadBackWrites := by
  intro s addr n v hpend hn halign haddr
  have hwin : inWindow addr := by unfold inWindow; omega
  have hpage : addr < 0x40000 → addr + n ≤ 0x40000 := add_le_of_aligned hn halign rfl
  have hlen : (unlanes v n).length = n := length_unlanes v n
  rw [hostWrite_window hpend halign hwin]
  refine ⟨rfl, pokeBytes_frame s addr _, fun j hj => ?_, fun x hx => ?_, fun hout => ?_, fun hin => ?_⟩
  · rw [viewByte_pokeBytes, hlen, Nat.add_sub_cancel_left, getD_unlanes v hj]
    by_cases hmem : inWritable s.params (addr + j)
    · rw [if_pos ⟨by omega, by omega, hmem⟩, if_pos (by omega)]
    · rw [if_neg fun h => hmem h.2.2, if_neg (by omega), viewByte_beyond (by omega) hmem]
  · rw [viewByte_pokeBytes, hlen, if_neg (by omega)]
  · exact pokeBytes_outside fun x hlo hhi => by rw [hlen] at hhi; omega
  · have hinside : ∀ x, addr ≤ x → x < addr + (unlanes v n).length → inWritable s.params x :=
      fun x hlo hhi => by omega
    have hshown := viewBytes_pokeBytes hinside
    rw [hlen] at hshown
    rw [hostRead_window (by rw [pokeBytes_pending, hpend]) halign hwin, hshown, lanes_unlanes]
    rfl

end Sys2Proof.Machine

namespace Sys2Proof.Machine

open Sys2Proof

/-! ## The encoding of commands (spec/30_encoding R100-R112, spec/60_exceptions R272)

### A format's word, by its fields (R101-R105) -/

/-- A field is a concatenation exactly when the fields at the places of its two parts are the parts. -/
theorem extractLsb'_eq_append_iff {N a m n : Nat} {w : BitVec N} {x : BitVec m} {y : BitVec n} :
    w.extractLsb' a (m + n) = x ++ y ↔ w.extractLsb' (a + n) m = x ∧ w.extractLsb' a n = y := by
  constructor
  · intro h
    rw [← BitVec.extractLsb'_append_extractLsb'_eq_extractLsb' rfl] at h
    exact ⟨by simpa only [BitVec.extractLsb'_append_eq_left] using congrArg (BitVec.extractLsb' n m) h,
      by simpa only [BitVec.extractLsb'_append_eq_right] using congrArg (BitVec.extractLsb' 0 n) h⟩
  · rintro ⟨rfl, rfl⟩
    exact (BitVec.extractLsb'_append_extractLsb'_eq_extractLsb' rfl).symm

/-- A word, as the field that is all of it. -/
theorem word_eq_iff {v w : Word} : v = w ↔ w.extractLsb' 0 32 = v := by
  rw [BitVec.extractLsb'_eq_self, eq_comm]

theorem encodeN_eq_iff {opc : Byte} {w : Word} : encodeN opc = w ↔ opcodeOf w = opc ∧ w.extractLsb' 0 24 = 0#24 :=
  word_eq_iff.trans (extractLsb'_eq_append_iff (m := 8) (n := 24))

theorem encodeF_eq_iff {opc : Byte} {fld : BitVec 2} {a b : Byte} {w : Word} :
    encodeF opc fld a b = w ↔
      opcodeOf w = opc ∧ w.extractLsb' 18 6 = 0#6 ∧ w.extractLsb' 16 2 = fld ∧ w.extractLsb' 8 8 = a
        ∧ w.extractLsb' 0 8 = b := by
  rw [word_eq_iff, encodeF, extractLsb'_eq_append_iff (m := 24) (n := 8), extractLsb'_eq_append_iff (m := 16) (n := 8),
    extractLsb'_eq_append_iff (m := 14) (n := 2), extractLsb'_eq_append_iff (m := 8) (n := 6)]
  simp only [and_assoc]
  rfl

theorem encodeX_eq_iff {opc coeff dst src : Byte} {w : Word} :
    encodeX opc coeff dst src = w ↔
      opcodeOf w = opc ∧ w.extractLsb' 16 8 = coeff ∧ w.extractLsb' 8 8 = dst ∧ w.extractLsb' 0 8 = src := by
  rw [word_eq_iff, encodeX, extractLsb'_eq_append_iff (m := 24) (n := 8), extractLsb'_eq_append_iff (m := 16) (n := 8),
    extractLsb'_eq_append_iff (m := 8) (n := 8)]
  simp only [and_assoc]
  rfl

theorem encodeI_eq_iff {opc : Byte} {imm : BitVec 16} {w : Word} :
    encodeI opc imm = w ↔ opcodeOf w = opc ∧ w.extractLsb' 16 8 = 0#8 ∧ w.extractLsb' 0 16 = imm := by
  rw [word_eq_iff, encodeI, extractLsb'_eq_append_iff (m := 16) (n := 16), extractLsb'_eq_append_iff (m := 8) (n := 8)]
  simp only [and_assoc]
  rfl

/-! ### The decoder, by the row of the word's opcode (R107-R109) -/

theorem decodeFormatN_eq_ok_iff {w : Word} {i j : Instr} :
    decodeFormatN w i = .ok j ↔ w.extractLsb' 0 24 = 0#24 ∧ i = j := by
  unfold decodeFormatN
  split <;> simp [*]

theorem decodeFormatN_eq_error_iff {w : Word} {i : Instr} {e : Reject} :
    decodeFormatN w i = .error e ↔ w.extractLsb' 0 24 ≠ 0#24 ∧ e = .reservedBits := by
  unfold decodeFormatN
  split <;> simp [*, @eq_comm _ e]

theorem decodeFormatF_eq_ok_iff {w : Word} {i j : Instr} :
    decodeFormatF w i = .ok j ↔ w.extractLsb' 18 6 = 0#6 ∧ fieldCodeOk (w.extractLsb' 16 2) = true ∧ i = j := by
  unfold decodeFormatF
  split
  · split <;> simp [*]
  · simp [*]

theorem decodeFormatF_eq_error_iff {w : Word} {i : Instr} {e : Reject} :
    decodeFormatF w i = .error e ↔
      (w.extractLsb' 18 6 ≠ 0#6 ∧ e = .reservedBits)
        ∨ (w.extractLsb' 18 6 = 0#6 ∧ w.extractLsb' 16 2 = 3#2 ∧ e = .fieldCodeThree) := by
  unfold decodeFormatF fieldCodeOk
  split
  · by_cases hfld : w.extractLsb' 16 2 = 3#2 <;> simp [*, @eq_comm _ e]
  · simp [*, @eq_comm _ e]

/-- The opcodes of the six rows of format N (R107). -/
def opcodesN : List Byte := [0x00#8, 0x01#8, 0x20#8, 0x21#8, 0x30#8, 0x40#8]

/-- Everything the decoder can do, by the format of the row that the word's opcode names. -/
theorem decode_cases (w : Word) :
    (opcodeOf w ∈ opcodesN ∧ ∃ i, i.wellFormed = true ∧ encode i = encodeN (opcodeOf w) ∧ decode w = decodeFormatN w i)
      ∨ (opcodeOf w ∈ [0x10#8, 0x11#8] ∧ ∃ mk : BitVec 2 → Byte → Byte → Instr,
          (∀ f a b, (mk f a b).wellFormed = fieldCodeOk f ∧ encode (mk f a b) = encodeF (opcodeOf w) f a b)
            ∧ decode w = decodeFormatF w (mk (w.extractLsb' 16 2) (w.extractLsb' 8 8) (w.extractLsb' 0 8)))
      ∨ (opcodeOf w = 0x12#8 ∧ decode w = if w.extractLsb' 0 8 = 0#8 then
          decodeFormatF w (.gfInv (w.extractLsb' 16 2) (w.extractLsb' 8 8)) else .error .reservedBits)
      ∨ (opcodeOf w = 0x13#8 ∧ decode w = .ok (.gfAxpy (w.extractLsb' 16 8) (w.extractLsb' 8 8) (w.extractLsb' 0 8)))
      ∨ (opcodeOf w = 0x31#8 ∧ decode w = if w.extractLsb' 16 8 = 0#8 then
          .ok (.encSetdens (w.extractLsb' 0 16)) else .error .reservedBits)
      ∨ (opcodeOf w ∉ opcodesN ++ [0x10#8, 0x11#8, 0x12#8, 0x13#8, 0x31#8] ∧ decode w = .error .reservedOpcode) := by
  by_cases hN : opcodeOf w ∈ opcodesN
  · refine .inl ⟨hN, ?_⟩
    simp only [opcodesN, List.mem_cons, List.not_mem_nil, or_false] at hN
    obtain h | h | h | h | h | h := hN
    · exact ⟨.nop, rfl, h ▸ rfl, by simp [decode, h]⟩
    · exact ⟨.init, rfl, h ▸ rfl, by simp [decode, h]⟩
    · exact ⟨.genDense, rfl, h ▸ rfl, by simp [decode, h]⟩
    · exact ⟨.genSparse, rfl, h ▸ rfl, by simp [decode, h]⟩
    · exact ⟨.encWrite, rfl, h ▸ rfl, by simp [decode, h]⟩
    · exact ⟨.decRead, rfl, h ▸ rfl, by simp [decode, h]⟩
  by_cases hadd : opcodeOf w = 0x10#8
  · exact .inr (.inl ⟨by simp [hadd], .gfAdd, fun _ _ _ => ⟨rfl, hadd ▸ rfl⟩, by simp [decode, hadd]⟩)
  by_cases hmul : opcodeOf w = 0x11#8
  · exact .inr (.inl ⟨by simp [hmul], .gfMul, fun _ _ _ => ⟨rfl, hmul ▸ rfl⟩, by simp [decode, hmul]⟩)
  by_cases hinv : opcodeOf w = 0x12#8
  · exact .inr (.inr (.inl ⟨hinv, by simp [decode, hinv]⟩))
  by_cases haxpy : opcodeOf w = 0x13#8
  · exact .inr (.inr (.inr (.inl ⟨haxpy, by simp [decode, haxpy]⟩)))
  by_cases hsetdens : opcodeOf w = 0x31#8
  · exact .inr (.inr (.inr (.inr (.inl ⟨hsetdens, by simp [decode, hsetdens]⟩))))
  · refine .inr (.inr (.inr (.inr (.inr ⟨by simp [*], ?_⟩))))
    simp only [opcodesN, List.mem_cons, List.not_mem_nil, or_false, not_or] at hN
    simp [decode, *]

theorem decode_encode {i : Instr} (hwf : i.wellFormed = true) : decode (encode i) = .ok i := by
  cases i with
  | nop => decide
  | init => decide
  | genDense => decide
  | genSparse => decide
  | encWrite => decide
  | decRead => decide
  | gfAdd fld a b =>
    obtain ⟨hopc, hzero, hfld, ha, hb⟩ := encodeF_eq_iff.1 (rfl : _ = encode (.gfAdd fld a b))
    simpa [decode, hopc, hfld, ha, hb] using decodeFormatF_eq_ok_iff.2 ⟨hzero, by rw [hfld]; exact hwf, rfl⟩
  | gfMul fld a b =>
    obtain ⟨hopc, hzero, hfld, ha, hb⟩ := encodeF_eq_iff.1 (rfl : _ = encode (.gfMul fld a b))
    simpa [decode, hopc, hfld, ha, hb] using decodeFormatF_eq_ok_iff.2 ⟨hzero, by rw [hfld]; exact hwf, rfl⟩
  | gfInv fld a =>
    obtain ⟨hopc, hzero, hfld, ha, hb⟩ := encodeF_eq_iff.1 (rfl : _ = encode (.gfInv fld a))
    simpa [decode, hopc, hfld, ha, hb] using decodeFormatF_eq_ok_iff.2 ⟨hzero, by rw [hfld]; exact hwf, rfl⟩
  | gfAxpy coeff dst src =>
    obtain ⟨hopc, hcoeff, hdst, hsrc⟩ := encodeX_eq_iff.1 (rfl : _ = encode (.gfAxpy coeff dst src))
    simp [decode, hopc, hcoeff, hdst, hsrc]
  | encSetdens imm =>
    obtain ⟨hopc, hzero, himm⟩ := encodeI_eq_iff.1 (rfl : _ = encode (.encSetdens imm))
    simp [decode, hopc, hzero, himm]

/-- Settles O2: the fields of the word are the opcode and the operands that the decoder reads back. -/
theorem decodeEncodeAgree : Obligations.DecodeEncodeAgree := fun _ => decode_encode

/-- Settles O3: in each row the decoder's checks are the fixed fields of the row's format, and its operands are the other fields. -/
theorem encodeDecodeAgree : Obligations.EncodeDecodeAgree := by
  intro w i h
  obtain ⟨-, j, hwf, henc, hdec⟩ | ⟨-, mk, hmk, hdec⟩ | ⟨hopc, hdec⟩ | ⟨hopc, hdec⟩ | ⟨hopc, hdec⟩ | ⟨-, hdec⟩ :=
    decode_cases w <;> rw [hdec] at h
  · obtain ⟨hzero, rfl⟩ := decodeFormatN_eq_ok_iff.1 h
    exact ⟨hwf, henc.trans (encodeN_eq_iff.2 ⟨rfl, hzero⟩)⟩
  · obtain ⟨hzero, hfld, rfl⟩ := decodeFormatF_eq_ok_iff.1 h
    obtain ⟨hwf, henc⟩ := hmk (w.extractLsb' 16 2) (w.extractLsb' 8 8) (w.extractLsb' 0 8)
    exact ⟨hwf.trans hfld, henc.trans (encodeF_eq_iff.2 ⟨rfl, hzero, rfl, rfl, rfl⟩)⟩
  · obtain ⟨hb, h⟩ := (ite_eq_iff.1 h).resolve_right nofun
    obtain ⟨hzero, hfld, rfl⟩ := decodeFormatF_eq_ok_iff.1 h
    exact ⟨hfld, encodeF_eq_iff.2 ⟨hopc, hzero, rfl, rfl, hb⟩⟩
  · obtain rfl := Except.ok.inj h
    exact ⟨rfl, encodeX_eq_iff.2 ⟨hopc, rfl, rfl, rfl⟩⟩
  · obtain ⟨hzero, h⟩ := (ite_eq_iff.1 h).resolve_right nofun
    obtain rfl := Except.ok.inj h
    exact ⟨rfl, encodeI_eq_iff.2 ⟨hopc, hzero, rfl⟩⟩
  · cases h

/-! ### The rejected words (R108) -/

/-- A field as a number. -/
theorem extractLsb'_eq_iff {N a n : Nat} {w : BitVec N} {x : BitVec n} :
    w.extractLsb' a n = x ↔ w.toNat / 2 ^ a % 2 ^ n = x.toNat := by
  rw [← BitVec.toNat_inj, BitVec.extractLsb'_toNat, Nat.shiftRight_eq_div_pow]

/-- Settles O4: within each row the decoder's checks are comparisons of the word's fields with numbers, and the rows exclude each
other by their opcodes. -/
theorem decoderRejectsTheThreeKinds : Obligations.DecoderRejectsTheThreeKinds := by
  unfold Obligations.DecoderRejectsTheThreeKinds
  rw [← forall_and, ← forall_and]
  intro w
  have hlt := w.isLt
  obtain ⟨hopc, j, -, -, hdec⟩ | ⟨hopc, mk, -, hdec⟩ | ⟨hopc, hdec⟩ | ⟨hopc, hdec⟩ | ⟨hopc, hdec⟩ | ⟨hopc, hdec⟩ :=
    decode_cases w <;>
  simp only [opcodesN, List.cons_append, List.nil_append, List.mem_cons, List.not_mem_nil, or_false, opcodeOf,
    extractLsb'_eq_iff, BitVec.toNat_ofNat] at hopc <;>
  simp only [hdec, List.mem_cons, List.not_mem_nil, or_false]
  · simp only [decodeFormatN_eq_error_iff, extractLsb'_eq_iff, BitVec.toNat_ofNat, reduceCtorEq, and_false, and_true, ne_eq,
      false_iff]
    omega
  · simp only [decodeFormatF_eq_error_iff, extractLsb'_eq_iff, BitVec.toNat_ofNat, reduceCtorEq, and_false, and_true, ne_eq,
      or_false, false_or, false_iff]
    omega
  · simp only [ite_eq_iff, decodeFormatF_eq_error_iff, extractLsb'_eq_iff, BitVec.toNat_ofNat, reduceCtorEq, Except.error.injEq,
      and_false, and_true, ne_eq, or_false, false_or, false_iff]
    omega
  · simp only [reduceCtorEq, false_iff]
    omega
  · simp only [ite_eq_iff, extractLsb'_eq_iff, BitVec.toNat_ofNat, reduceCtorEq, Except.error.injEq, and_false, and_true,
      or_false, false_or, false_iff]
    omega
  · simp only [Except.error.injEq, reduceCtorEq, true_iff, false_iff]
    omega

/-- Settles O7: a word that decodes would be a well-formed command's, so the engine's turn meets a rejected word. -/
theorem illegalWordsCompleteWithIllegal : Obligations.IllegalWordsCompleteWithIllegal := by
  rintro w rest s ⟨hinbox, hrst, hpend⟩ hillegal
  cases hdec : decode w with
  | ok i =>
    obtain ⟨hwf, henc⟩ := encodeDecodeAgree w i hdec
    exact absurd henc (hillegal i hwf)
  | error e =>
    rw [step_of_engine hinbox, engineTurn_of_rejected (s := { s with inbox := rest }) hrst hpend hdec, raise_eq]

/-! ### Assembler lines (R110-R112, R114) -/

theorem fieldCodeOk_fldCode {fld : FldName} {f : BitVec 2} (h : fldCode fld = some f) : fieldCodeOk f = true := by
  cases fld with
  | gf2 => cases h; rfl
  | gf16 => cases h; rfl
  | gf256 => cases h; rfl
  | other => cases h

/-- A line of format F that is not refused carries the code of one of the three fields. -/
theorem asmF_eq_some {mk : BitVec 2 → Byte → Byte → Instr} {fld : FldName} {a b : Nat} {i : Instr}
    (h : asmF mk fld a b = some i) : ∃ f x y, fieldCodeOk f = true ∧ i = mk f x y := by
  unfold asmF at h
  split at h
  · next f x y hf _ _ => exact ⟨f, x, y, fieldCodeOk_fldCode hf, (Option.some.inj h).symm⟩
  · cases h

theorem asmX_eq_some {dst coeff src : Nat} {i : Instr} (h : asmX dst coeff src = some i) :
    ∃ c d s, i = .gfAxpy c d s := by
  unfold asmX at h
  split at h
  · next c d s _ _ _ => exact ⟨c, d, s, (Option.some.inj h).symm⟩
  · cases h

theorem asmInstr_wellFormed {l : AsmLine} {i : Instr} (h : asmInstr l = some i) : i.wellFormed = true := by
  cases l with
  | nop => cases h; rfl
  | init => cases h; rfl
  | genDense => cases h; rfl
  | genSparse => cases h; rfl
  | encWrite => cases h; rfl
  | decRead => cases h; rfl
  | gfAdd fld a b => obtain ⟨f, x, y, hf, rfl⟩ := asmF_eq_some h; exact hf
  | gfMul fld a b => obtain ⟨f, x, y, hf, rfl⟩ := asmF_eq_some h; exact hf
  | gfInv fld a => obtain ⟨f, x, y, hf, rfl⟩ := asmF_eq_some h; exact hf
  | gfSub fld a b => obtain ⟨f, x, y, hf, rfl⟩ := asmF_eq_some h; exact hf
  | gfSq fld a => obtain ⟨f, x, y, hf, rfl⟩ := asmF_eq_some h; exact hf
  | gfAxpy dst coeff src => obtain ⟨c, d, s, rfl⟩ := asmX_eq_some h; rfl
  | axpyXor dst src => obtain ⟨c, d, s, rfl⟩ := asmX_eq_some h; rfl
  | encSetdens imm => obtain ⟨m, -, rfl⟩ := Option.map_eq_some_iff.1 h; rfl
  | encSetdensF num den => obtain ⟨m, -, rfl⟩ := Option.map_eq_some_iff.1 h; rfl

theorem assemble_eq_some {l : AsmLine} {w : Word} (h : assemble l = some w) :
    ∃ i : Instr, i.wellFormed = true ∧ w = encode i := by
  obtain ⟨i, hi, rfl⟩ := Option.map_eq_some_iff.1 h
  exact ⟨i, asmInstr_wellFormed hi, rfl⟩

theorem assembleText_eq_some {text : List Char} {w : Word} (h : assembleText text = some w) :
    ∃ l, readAsm text = some l ∧ assemble l = some w := by
  unfold assembleText at h
  split at h
  · next l hl => exact ⟨l, hl, h⟩
  · cases h

/-- The density code of d = num/den in [0, 1] is d * 32768 rounded, and at most 32768 (R112, R180). -/
theorem densityCode_eq_some {num den : Nat} (hden : 0 < den) (hle : num ≤ den) :
    ∃ imm : BitVec 16, densityCode num den = some imm ∧ imm.toNat = (65536 * num + den) / (2 * den)
      ∧ imm.toNat ≤ 0x8000 := by
  have hcode : (65536 * num + den) / (2 * den) ≤ 0x8000 :=
    Nat.lt_succ_iff.1 ((Nat.div_lt_iff_lt_mul (by omega)).2 (by omega))
  have hnum : (BitVec.ofNat 16 ((65536 * num + den) / (2 * den))).toNat = (65536 * num + den) / (2 * den) :=
    (BitVec.toNat_ofNat _ _).trans (Nat.mod_eq_of_lt (by omega))
  refine ⟨_, ?_, hnum, hnum.trans_le hcode⟩
  rw [densityCode, if_neg (by omega), asmField, if_pos (by omega)]

/-- Settles O5: no kind of line gives an ill-formed command, text is read to a line first, the first three pseudo-instructions are
lines of R110 by definition, and the density code is a quotient. -/
theorem assembledLinesAreCommands : Obligations.AssembledLinesAreCommands := by
  refine ⟨fun l w => assemble_eq_some, fun text w h => ?_, fun _ _ _ => rfl, fun _ _ => rfl, fun _ _ => rfl,
    fun num den hden hle => ?_⟩
  · obtain ⟨l, -, hl⟩ := assembleText_eq_some h
    exact assemble_eq_some hl
  · obtain ⟨imm, hcode, hnum, hvalid⟩ := densityCode_eq_some hden hle
    have hpos : 0 < 2 * den := by omega
    refine ⟨imm, by rw [assemble, asmInstr, hcode]; rfl, hvalid, ?_, ?_⟩
    · rw [hnum]; exact Nat.mul_div_le _ _
    · rw [hnum]; exact Nat.lt_mul_div_succ _ hpos

/-- A worked encoding: the text assembles to the word of a command, which decodes to the command. -/
theorem assembleText_and_decode {text : String} {w : Word} {i : Instr} (hwf : i.wellFormed = true) (henc : encode i = w)
    (htext : assembleText text.toList = some (encode i)) :
    assembleText text.toList = some w ∧ decode w = .ok i := by
  subst henc
  exact ⟨htext, decode_encode hwf⟩

/-- Settles O1: each text assembles to the word of its command, and the illegal words are of the three kinds of R108. -/
theorem workedEncodingsDecode : Obligations.WorkedEncodingsDecode := by
  obtain ⟨hopcode, hbits, hfield⟩ := decoderRejectsTheThreeKinds
  exact ⟨assembleText_and_decode rfl rfl (by decide +kernel), assembleText_and_decode rfl rfl (by decide +kernel),
    assembleText_and_decode rfl rfl (by decide +kernel), assembleText_and_decode rfl rfl (by decide +kernel),
    assembleText_and_decode rfl rfl (by decide +kernel), assembleText_and_decode rfl rfl (by decide +kernel),
    (hbits _).2 (by decide), (hfield _).2 (by decide), (hopcode _).2 (by decide)⟩

end Sys2Proof.Machine

namespace Sys2Proof.Machine

open Sys2Proof

/-! ## Runs of a host program (spec/70_reset_and_hazards R308-R310, spec/60_exceptions R280) -/

/-- Out of reset every transaction is answered, one of a wrong width with a bus error (R7, D27). -/
theorem hostTransaction_answers {size : BitVec 2} {s : State} (act : Nat → State × HostResp) (hr : s.rst = false) :
    ∃ t a, hostTransaction size s act = .next t ∧ t.resp = some a := by
  cases hz : sizeBytes size with
  | none => exact ⟨_, _, hostTransaction_of_wrong_size act hr hz, rfl⟩
  | some n => exact ⟨_, _, hostTransaction_of_size act hr hz, rfl⟩

theorem stepWith_of_outside (s : State) {e : Event} (he : e ≠ .engine) :
    stepWith e s = outsideEvent e { s with inbox := [] } :=
  step_of_outside rfl he

theorem stepWith_read {s : State} (hr : s.rst = false) (addr : BitVec 25) (size : BitVec 2) :
    ∃ t a, stepWith (.read addr size) s = .next t ∧ t.resp = some a := by
  rw [stepWith_of_outside (e := .read addr size) s nofun]
  exact hostTransaction_answers _ hr

theorem stepWith_write {s : State} (hr : s.rst = false) (addr : BitVec 25) (size : BitVec 2) (v : Word) :
    ∃ t a, stepWith (.write addr size v) s = .next t ∧ t.resp = some a := by
  rw [stepWith_of_outside (e := .write addr size v) s nofun]
  exact hostTransaction_answers _ hr

/-- The transaction of an action is answered. -/
theorem transaction_answers {l : HostLine} {e : Event} {s : State} (h : l.transaction = some e) (hr : s.rst = false) :
    ∃ t a, stepWith e s = .next t ∧ t.resp = some a := by
  cases l with
  | w32 addr v => cases h; exact stepWith_write hr _ _ _
  | w16 addr v => cases h; exact stepWith_write hr _ _ _
  | w8 addr v => cases h; exact stepWith_write hr _ _ _
  | r32 addr name => cases h; exact stepWith_read hr _ _
  | cmd line => obtain ⟨w, -, rfl⟩ := Option.map_eq_some_iff.1 h; exact stepWith_write hr _ _ _
  | wait => cases h; exact stepWith_read hr _ _

/-- The host's turn, when the unit makes the step of the next action's transaction. -/
theorem hostTurn_of_step {r : HostRun} {l : HostLine} {ls : List HostLine} {e : Event} {t : State} (hrest : r.rest = l :: ls)
    (he : l.transaction = some e) (ht : stepWith e r.unit = .next t) : r.turn .host = some (r.answered l ls t) := by
  simp [HostRun.turn, HostRun.hostTurn, hrest, he, ht, nextState]

/-- Only WAIT looks at its answer (R113). -/
theorem over_of_ne_wait {l : HostLine} (h : l ≠ .wait) (v : Word) : l.over v = true := by
  cases l with
  | wait => exact absurd rfl h
  | _ => rfl

/-- The read of WAIT's loop answers with STATUS. -/
theorem stepWith_readStatus {s : State} (hr : s.rst = false) :
    stepWith (hostR32 0x14) s = .next { s with inbox := [], resp := some (okResp (regRead s (regAt 0x014))) } := by
  obtain ⟨hread, -⟩ := hostTransactionsAnswer
  rw [stepWith, hread { s with inbox := [hostR32 0x14] } 0x14#25 2#2 4 [] rfl hr rfl, hostRead_inbox]
  rfl

/-- WAIT goes on exactly when its answer, STATUS, has BUSY = 0. -/
theorem over_wait_status (s : State) : HostLine.wait.over (regRead s (regAt 0x014)) = !s.busy := by
  obtain ⟨hbusy, -⟩ := status_flags s
  rw [HostLine.over, hbusy, State.busy]

/-- An action whose answer does not end it stays the next one. -/
theorem answered_rest_again {r : HostRun} {l : HostLine} {ls : List HostLine} {t : State} {a : HostResp}
    (h : t.resp = some a) (ho : l.over a.rdata = false) : (r.answered l ls t).rest = r.rest := by
  simp [HostRun.answered, h, ho]

/-- A transaction of size code 3 is a bus error without effect (D27). -/
theorem step_of_wrong_size {s : State} {addr : BitVec 25} {data : Word} {rest : List Event} (hr : s.rst = false)
    (h : s.inbox = .read addr 3#2 :: rest ∨ s.inbox = .write addr 3#2 data :: rest) :
    step s = .next { s with inbox := rest, resp := some busError } := by
  obtain h | h := h
  · rw [step_of_outside h nofun, outsideEvent]
    exact hostTransaction_of_wrong_size _ hr rfl
  · rw [step_of_outside h nofun, outsideEvent]
    exact hostTransaction_of_wrong_size _ hr rfl

/-- Settles O49: the unit answers every transaction, only WAIT looks at its answer, which is STATUS, and an outcome is a run that
is over. -/
theorem wrongSizesAreBusErrorsAndRunsGoOn : Obligations.WrongSizesAreBusErrorsAndRunsGoOn := by
  refine ⟨fun s addr data rest hr h => ⟨busError, step_of_wrong_size hr h, rfl, fun _ => rfl⟩,
    fun r l ls e hr hrest hwait he => ?_, fun r ls hr hrest => ?_, fun r => ?_⟩
  · obtain ⟨t, a, ht, ha⟩ := transaction_answers he hr
    exact ⟨_, hostTurn_of_step hrest he ht, answered_rest ha (over_of_ne_wait hwait _)⟩
  · refine ⟨_, hostTurn_of_step hrest rfl (stepWith_readStatus hr), ?_⟩
    have hover := over_wait_status r.unit
    cases hbusy : r.unit.busy with
    | true => exact (answered_rest_again rfl (hover.trans (by rw [hbusy]; rfl))).trans hrest
    | false => exact answered_rest rfl (hover.trans (by rw [hbusy]; rfl))
  · rw [← Option.isSome_iff_exists, outcome_isSome]
    simp [HostRun.isOver, State.busy]

end Sys2Proof.Machine

namespace Sys2Proof.Machine

open Sys2Proof

/-! ## The control commands (spec/40_control R130-R137)

### NOP (R130) -/

theorem exec_nop (s : State) : exec .nop s = .next (complete .none s) := rfl

/-- The step of a fresh unit that has accepted the word 0. -/
theorem step_reset_nop :
    step (State.reset.withFetchWord 32 0) = .next (complete .none (accept (encode .nop) State.reset)) := by
  have hdec : decode (encode .nop) = .ok .nop := decode_encode rfl
  rw [step_of_engine (rest := []) rfl, engineTurn_of_decoded (w := encode .nop) (i := .nop) rfl rfl hdec, exec_nop]
  rfl

/-- Settles O21: a word below 2^24 has opcode 0, whose row is NOP's, and NOP is a completion and nothing more. -/
theorem nopCompletes : Obligations.NopCompletes := by
  refine ⟨rfl, fun w hlt hne => ?_, fun _ => rfl, fun t ht => ?_⟩
  · have hopc : w.toNat / 2 ^ 24 = 0 := Nat.div_eq_of_lt hlt
    have hrest : w.toNat % 2 ^ 24 ≠ 0 := by
      rw [Nat.mod_eq_of_lt hlt]
      exact BitVec.toNat_ne_iff_ne.2 hne
    exact (decoderRejectsTheThreeKinds.2.1 w).2 (.inl ⟨by rw [hopc]; decide, hrest⟩)
  · rw [step_reset_nop, Host.Outcome.next.injEq] at ht
    subst ht
    refine ⟨by decide, fun r hr => ?_⟩
    cases r with
    | status => exact absurd rfl hr
    | _ => rfl

/-! ### INIT (R131-R135, R252, R253) -/

/-- R131's conditions on the configuration registers. -/
theorem configOk_iff {s : State} : configOk s = true ↔
    cfgField s.cfg0 ≠ 3#2 ∧ (cfgFormat s.cfg0 = 0#2 ∨ cfgFormat s.cfg0 = 1#2)
      ∧ 1 ≤ low16 s.cfgSymbols ∧ low16 s.cfgSymbols ≤ s.params.kMax
      ∧ 1 ≤ low16 s.cfgSymsize ∧ low16 s.cfgSymsize ≤ s.params.sMax ∧ low16 s.cfgDensity ≤ 0x8000 := by
  have hfield : ∀ f : BitVec 2, f.toNat ≤ 2 ↔ f ≠ 3#2 := by decide
  have hformat : ∀ f : BitVec 2, f.toNat ≤ 1 ↔ f = 0#2 ∨ f = 1#2 := by decide
  simp only [configOk, decide_eq_true_eq, hfield, hformat, Nat.one_le_iff_ne_zero]

theorem execInit_of_ok {s : State} (h : configOk s = true) :
    execInit s = .next (complete .none (configure (teardown s))) := if_pos h

theorem execInit_of_invalid {s : State} (h : configOk s ≠ true) :
    execInit s = .next (complete .config (unconfigure (teardown s))) := if_neg h

/-- The numbers that a new configuration's registers hold; each fits its register. -/
theorem configure_toNat {s : State} (hk : 1 ≤ low16 s.cfgSymbols) :
    (configure s).asymbols.toNat = low16 s.cfgSymbols ∧ (configure s).asymsize.toNat = low16 s.cfgSymsize
      ∧ (configure s).density.toNat = low16 s.cfgDensity ∧ (configure s).hsize.toNat = newHeader s
      ∧ (configure s).psize.toNat = newHeader s + low16 s.cfgSymsize := by
  have hheader : newHeader s ≤ max 8 (2 + low16 s.cfgSymbols) := (headerSize_bounds _ _ hk).2
  have hsymbols := low16_lt s.cfgSymbols
  have hsymsize := low16_lt s.cfgSymsize
  have hdensity := low16_lt s.cfgDensity
  simp only [configure_asymbols, configure_asymsize, configure_density, configure_hsize, configure_psize, BitVec.toNat_ofNat]
  omega

/-- The header sizes of the sparse format and of the dense format in each field (R252). -/
theorem newHeader_eq (s : State) :
    (cfgFormat s.cfg0 = 1#2 → newHeader s = 8)
      ∧ (cfgFormat s.cfg0 = 0#2 → cfgField s.cfg0 = 0#2 → newHeader s = 2 + (low16 s.cfgSymbols + 7) / 8)
      ∧ (cfgFormat s.cfg0 = 0#2 → cfgField s.cfg0 = 1#2 → newHeader s = 2 + (low16 s.cfgSymbols + 1) / 2)
      ∧ (cfgFormat s.cfg0 = 0#2 → cfgField s.cfg0 = 2#2 → newHeader s = 2 + low16 s.cfgSymbols) := by
  have hdense : cfgFormat s.cfg0 = 0#2 →
      newHeader s = 2 + (low16 s.cfgSymbols * (Field.ofCode (cfgField s.cfg0)).bits + 7) / 8 := fun hfmt => if_pos hfmt
  refine ⟨fun hfmt => ?_, fun hfmt hF => ?_, fun hfmt hF => ?_, fun hfmt hF => ?_⟩
  · rw [newHeader, hfmt]
    rfl
  · rw [hdense hfmt, hF, show (Field.ofCode 0#2).bits = 1 from rfl, Nat.mul_one]
  · rw [hdense hfmt, hF, show (Field.ofCode 1#2).bits = 4 from rfl]
    omega
  · rw [hdense hfmt, hF, show (Field.ofCode 2#2).bits = 8 from rfl]
    omega

theorem complete_of_rank_ne {s : State} (h : s.rank ≠ s.asymbols) : s.complete = false := by
  simp [State.complete, h]

/-- Settles O22: the new configuration is latched over the torn-down one, and RANK = 0 is not its k. -/
theorem initBuildsInstance : Obligations.InitBuildsInstance := by
  intro s hfield hformat hk hk' hS hS' hD
  have hok : configOk s = true := configOk_iff.2 ⟨hfield, hformat, hk, hk', hS, hS', hD⟩
  obtain ⟨hF, hfmt, hrole⟩ := packCfg_fields (cfgField s.cfg0) (cfgFormat s.cfg0) (cfgRole s.cfg0)
  obtain ⟨hsymbols, hsymsize, hdensity, hhsize, hpsize⟩ := configure_toNat (s := teardown s) hk
  obtain ⟨hsparse, hgf2, hgf16, hgf256⟩ := newHeader_eq (teardown s)
  have hrank : (configure (teardown s)).rank ≠ (configure (teardown s)).asymbols := fun h => by
    have hzero : 0 = low16 s.cfgSymbols := (congrArg BitVec.toNat h).trans hsymbols
    omega
  exact ⟨complete .none (configure (teardown s)), execInit_of_ok hok, rfl, hF, hfmt, hrole, inMask_packCfg _ _ _,
    hsymbols, hsymsize, hdensity, fun h => hhsize.trans (hsparse h), fun h h' => hhsize.trans (hgf2 h h'),
    fun h h' => hhsize.trans (hgf16 h h'), fun h h' => hhsize.trans (hgf256 h h'),
    hpsize.trans (congrArg (· + low16 s.cfgSymsize) hhsize.symm), fun _ => rfl,
    complete_of_rank_ne hrank⟩

/-- Settles O23: each case of the premise breaks one of R131's conditions. -/
theorem initFailureLeavesNoInstance : Obligations.InitFailureLeavesNoInstance := by
  intro s hbad
  have hformat : 1 < (cfgFormat s.cfg0).toNat → ¬(cfgFormat s.cfg0 = 0#2 ∨ cfgFormat s.cfg0 = 1#2) := by
    rintro h (h' | h') <;> rw [h'] at h <;> exact absurd h (by decide)
  have hinvalid : configOk s ≠ true := fun hok => by
    obtain ⟨hfield, hfmt, hk, hk', hS, hS', hD⟩ := configOk_iff.1 hok
    obtain h | h | h | h | h | h | h := hbad
    · exact hfield h
    · exact hformat h hfmt
    all_goals omega
  exact execInit_of_invalid hinvalid

/-! ### Where a configuration begins and ends (R132) -/

/-- CONFIGURED and the active configuration (R29, R38, R39, R44). -/
def activeConfig (s : State) : Bool × Word × Word × Word × Word × Word :=
  (s.configured, s.acfg0, s.asymbols, s.asymsize, s.hsize, s.psize)

theorem activeConfig_eq_iff {s t : State} : activeConfig t = activeConfig s ↔
    t.configured = s.configured ∧ t.acfg0 = s.acfg0 ∧ t.asymbols = s.asymbols ∧ t.asymsize = s.asymsize
      ∧ t.hsize = s.hsize ∧ t.psize = s.psize := by
  simp only [activeConfig, Prod.mk.injEq]

theorem activeConfig_readParsed (v : List Byte) (s : State) : activeConfig (readParsed v s) = activeConfig s := by
  unfold readParsed
  split <;> rfl

theorem HostFrame.activeConfig {s u : State} (h : HostFrame s u) : activeConfig u = Machine.activeConfig s := by
  rw [show u = _ from h]
  rfl

/-- Every command but INIT keeps the active configuration (R91). -/
theorem exec_activeConfig {i : Instr} (hinit : i ≠ .init) (s : State) :
    Yields (fun t => activeConfig t = activeConfig s) (exec i s) := by
  cases i with
  | nop => exact yields_finish.2 rfl
  | init => exact absurd rfl hinit
  | gfAdd fld a b => exact yields_withRange (fun _ => rfl) fun _ => yields_finish.2 rfl
  | gfMul fld a b => exact yields_withRange (fun _ => rfl) fun _ => yields_finish.2 rfl
  | gfInv fld a =>
    refine yields_withRange (fun _ => rfl) fun _ => ?_
    split
    · exact yields_raise.2 rfl
    · exact yields_finish.2 rfl
  | gfAxpy coeff dst src =>
    exact yields_withInstance (fun _ => rfl) fun _ => yields_withRange (fun _ => rfl) fun _ => yields_finish.2 rfl
  | genDense =>
    exact yields_withInstance (fun _ => rfl) fun _ => yields_withDraws (fun _ => rfl) fun _ => yields_finish.2 rfl
  | genSparse => exact yields_withInstance (fun _ => rfl) fun _ => yields_finish.2 rfl
  | encWrite =>
    refine yields_withRole rfl fun _ _ => ?_
    split
    · exact yields_finish.2 rfl
    split
    · exact yields_withDraws (fun _ => rfl) fun _ => yields_finish.2 rfl
    · exact yields_withDraws (fun _ => rfl) fun _ => yields_finish.2 rfl
  | encSetdens imm =>
    refine yields_withRole rfl fun _ _ => ?_
    split
    · exact yields_finish.2 rfl
    · exact yields_raise.2 rfl
  | decRead =>
    refine yields_withRole rfl fun _ _ => ?_
    split
    · exact yields_finish.2 rfl
    split
    · exact yields_raise.2 rfl
    split
    · exact yields_raise.2 rfl
    · next v _ => exact yields_finish.2 (activeConfig_readParsed v s)

/-- The engine's turn changes the active configuration only by a pending INIT. -/
theorem engineTurn_activeConfig (s : State) : Yields
    (fun t => activeConfig t = activeConfig s ∨ s.rst = false ∧ s.pending = some (encode .init)) (engineTurn s) := by
  obtain ⟨_, ht⟩ | ⟨_, _, ht⟩ | ⟨_, _, _, _, _, ht⟩ | ⟨w, i, hrst, hpend, hdec, ht⟩ := engineTurn_cases (s := s) rfl
  · rw [ht]; exact yields_next.2 (.inl rfl)
  · rw [ht]; exact yields_next.2 (.inl rfl)
  · rw [ht]; exact yields_raise.2 (.inl rfl)
  · by_cases hinit : i = .init
    · obtain ⟨-, henc⟩ := encodeDecodeAgree w i hdec
      exact fun _ _ => .inr ⟨hrst, by rw [hpend, ← henc, hinit]⟩
    · rw [ht]; exact fun t h => .inl (exec_activeConfig hinit s t h)

theorem hostTransaction_activeConfig (size : BitVec 2) {s : State} {act : Nat → State × HostResp}
    (hact : ∀ n, activeConfig (act n).1 = activeConfig s) :
    Yields (fun t => activeConfig t = activeConfig s) (hostTransaction size s act) := by
  obtain ⟨_, ht⟩ | ⟨_, _, ht⟩ | ⟨n, _, _, ht⟩ := hostTransaction_cases (size := size) (s := s) (act := act) rfl
  · rw [ht]; exact yields_next.2 rfl
  · rw [ht]; exact yields_next.2 rfl
  · rw [ht]; exact yields_next.2 (hact n)

/-- Of the acts from outside only the reset edge changes the active configuration. -/
theorem outsideEvent_activeConfig {e : Event} (he : ¬∃ d, e = .rstRise d) (s : State) :
    Yields (fun t => activeConfig t = activeConfig s) (outsideEvent e s) := by
  cases e with
  | read addr size => exact hostTransaction_activeConfig size fun _ => rfl
  | write addr size data =>
    exact hostTransaction_activeConfig size fun n => (hostWrite_hostFrame s addr.toNat n data).activeConfig
  | engine => exact yields_next.2 rfl
  | offer w => exact yields_next.2 rfl
  | rstRise d => exact absurd ⟨d, rfl⟩ he
  | rstFall => exact yields_next.2 rfl

/-- Settles O13: the engine changes the active configuration only by INIT, the host never, and of the other acts only the reset edge
does. -/
theorem instanceChangesOnlyByInitOrReset : Obligations.InstanceChangesOnlyByInitOrReset := by
  intro s t hstep hchange
  have hne : activeConfig t ≠ activeConfig s := mt activeConfig_eq_iff.1 hchange
  obtain ⟨hnil, ht⟩ | ⟨rest, hturn, ht⟩ | ⟨e, rest, _, hact, ht⟩ := step_cases hstep
  · obtain ⟨hrst, hpend⟩ := (engineTurn_activeConfig s t ht.symm).resolve_left hne
    exact .inr ⟨hrst, .inl hnil, hpend⟩
  · obtain ⟨hrst, hpend⟩ := (engineTurn_activeConfig { s with inbox := rest } t ht.symm).resolve_left hne
    exact .inr ⟨hrst, .inr ⟨rest, hturn⟩, hpend⟩
  · have hreset : ∃ d, e = .rstRise d :=
      by_contra fun he => hne (outsideEvent_activeConfig he { s with inbox := rest } t ht.symm)
    obtain ⟨d, rfl⟩ := hreset
    exact .inl ⟨d, rest, hact⟩

end Sys2Proof.Machine

namespace Sys2Proof.Machine

open Sys2Proof

/-! ## The field commands (spec/41_field_arithmetic R150-R162)

### The laws of the element operations (R161) -/

theorem Field.holds_of_lt {F : Field} {a : Byte} (h : a.toNat < F.size) : F.holds a = true := decide_eq_true h

theorem Field.lt_of_holds {F : Field} {a : Byte} (h : F.holds a = true) : a.toNat < F.size := of_decide_eq_true h

section

variable {p : Params} (hp : paramsLegal p = true) {F : Field} {a b c : Byte}
  (ha : F.holds a = true) (hb : F.holds b = true) (hc : F.holds c = true)

include hp ha

theorem one_mulF : mulF p F 1#8 a = a :=
  elem_inj hp (holds_mulF hp F.holds_one ha) ha (by rw [elem_mulF hp F.holds_one ha, elem_one, one_mul])

include hb

theorem mulF_comm : mulF p F a b = mulF p F b a :=
  elem_inj hp (holds_mulF hp ha hb) (holds_mulF hp hb ha) (by rw [elem_mulF hp ha hb, elem_mulF hp hb ha, mul_comm])

include hc

theorem mulF_assoc : mulF p F (mulF p F a b) c = mulF p F a (mulF p F b c) := by
  have hab := holds_mulF hp ha hb
  have hbc := holds_mulF hp hb hc
  refine elem_inj hp (holds_mulF hp hab hc) (holds_mulF hp ha hbc) ?_
  rw [elem_mulF hp hab hc, elem_mulF hp ha hb, elem_mulF hp ha hbc, elem_mulF hp hb hc, mul_assoc]

theorem mulF_xor : mulF p F a (b ^^^ c) = mulF p F a b ^^^ mulF p F a c := by
  have hbc := Field.holds_xor hb hc
  refine elem_inj hp (holds_mulF hp ha hbc) (Field.holds_xor (holds_mulF hp ha hb) (holds_mulF hp ha hc)) ?_
  rw [elem_mulF hp ha hbc, elem_xor, elem_xor, elem_mulF hp ha hb, elem_mulF hp ha hc, mul_add]

theorem xor_mulF : mulF p F (a ^^^ b) c = mulF p F a c ^^^ mulF p F b c := by
  rw [mulF_comm hp (Field.holds_xor ha hb) hc, mulF_xor hp hc ha hb, mulF_comm hp hc ha, mulF_comm hp hc hb]

/-- R153: an element has at most one inverse. -/
theorem mulF_inverse_unique (hab : mulF p F a b = 1#8) (hac : mulF p F a c = 1#8) : b = c := by
  calc b
    _ = mulF p F b (mulF p F a c) := by rw [hac, mulF_one hp hb]
    _ = mulF p F (mulF p F a b) c := by rw [← mulF_assoc hp hb ha hc, mulF_comm hp hb ha]
    _ = c := by rw [hab, one_mulF hp hc]

end

/-! ### The product as a remainder (R152) -/

/-- Two numbers that stand for the same element of the quotient by P differ by a multiple of P. -/
theorem exists_clmul_of_quot_eq {P n m u r : Nat} (hP : HasDegree P n) (hu : u < 2 ^ (n + m)) (hr : r < 2 ^ (n + m))
    (h : quot P u = quot P r) : ∃ c, c < 2 ^ m ∧ u ^^^ clmul P c m = r := by
  have hdvd : toPoly P ∣ toPoly (u ^^^ r) := toPoly_eq_sub u r ▸ AdjoinRoot.mk_eq_mk.1 h
  obtain ⟨q, hq⟩ := hdvd
  obtain ⟨c, rfl⟩ := exists_toPoly q
  have hc : c < 2 ^ m := by
    have hdeg : (toPoly P * toPoly c).degree < (n + m : Nat) := hq ▸ degree_toPoly_lt.2 (Nat.xor_lt_two_pow hu hr)
    rw [Polynomial.degree_mul, hP.degree, Nat.cast_add] at hdeg
    exact degree_toPoly_lt.1 (lt_of_add_lt_add_left hdeg)
  have hmul : clmul P c m = u ^^^ r := toPoly_inj ((toPoly_clmul hc).trans hq.symm)
  exact ⟨c, hc, by rw [hmul, ← Nat.xor_assoc, Nat.xor_self, Nat.zero_xor]⟩

/-- R152: the product differs from the carry-less product by a multiple of the modulus. -/
theorem exists_mulF_xor_clmul {p : Params} (hp : paramsLegal p = true) {F : Field} {a b : Byte} (ha : F.holds a = true)
    (hb : F.holds b = true) :
    ∃ c, c < 2 ^ (F.bits - 1)
      ∧ (mulF p F a b).toNat ^^^ clmul (F.modulus p) c (F.bits - 1) = clmul a.toNat b.toNat F.bits := by
  have hP := F.hasDegree_modulus hp
  have hbits := F.one_le_bits
  have ha' := Field.holds_iff.1 ha
  obtain ⟨hlt, hquot⟩ := reduce_spec hP hbits (clmul_lt b.toNat ha')
  rw [mulF_toNat hp ha hb]
  have hprod : clmul a.toNat b.toNat F.bits < 2 ^ (F.bits + (F.bits - 1)) := by
    rw [show F.bits + (F.bits - 1) = 2 * F.bits - 1 by omega]
    exact clmul_lt b.toNat ha'
  exact exists_clmul_of_quot_eq hP (hlt.trans_le (Nat.pow_le_pow_right two_pos (Nat.le_add_right ..))) hprod hquot

/-! ### The elements packed in a symbol byte (R154) -/

/-- Element j of a symbol byte: the bits `fb(F)*j ..` (R154). -/
def Field.element (F : Field) (x : Byte) (j : Nat) : Byte := (x >>> (F.bits * j)) &&& BitVec.ofNat 8 (2 ^ F.bits - 1)

theorem Field.getLsbD_element (F : Field) (x : Byte) (j r : Nat) :
    (F.element x j).getLsbD r = (decide (r < F.bits) && x.getLsbD (F.bits * j + r)) := by
  have hbits : F.bits ≤ 8 := by cases F <;> decide
  rw [element, BitVec.getLsbD_and, BitVec.getLsbD_ushiftRight, BitVec.getLsbD_ofNat, Nat.testBit_two_pow_sub_one,
    Bool.and_comm]
  by_cases hr : r < F.bits
  · simp [hr, hr.trans_le hbits]
  · simp [hr]

theorem Field.holds_element (F : Field) (x : Byte) (j : Nat) : F.holds (F.element x j) = true := by
  rw [Field.holds_iff]
  refine Nat.lt_pow_two_of_testBit _ fun i hi => ?_
  rw [BitVec.testBit_toNat, getLsbD_element, decide_eq_false (Nat.not_lt.2 hi), Bool.false_and]

theorem Field.element_xor (F : Field) (x y : Byte) (j : Nat) : F.element (x ^^^ y) j = F.element x j ^^^ F.element y j :=
  BitVec.eq_of_getLsbD_eq fun i _ => by
    simp only [getLsbD_element, BitVec.getLsbD_xor, Bool.and_xor_distrib_left]

@[simp] theorem Field.element_zero (F : Field) (j : Nat) : F.element 0#8 j = 0#8 :=
  BitVec.eq_of_getLsbD_eq fun i _ => by simp [getLsbD_element]

/-- A symbol byte is its elements. -/
theorem Field.ext_element (F : Field) {x y : Byte} (h : ∀ j < perByte F, F.element x j = F.element y j) : x = y := by
  refine BitVec.eq_of_getLsbD_eq fun i hi => ?_
  have hj : i / F.bits < perByte F := by cases F <;> simp only [perByte, bits] <;> omega
  have hr : i % F.bits < F.bits := Nat.mod_lt _ F.one_le_bits
  simpa [getLsbD_element, hr, Nat.div_add_mod] using congrArg (·.getLsbD (i % F.bits)) (h _ hj)

theorem Field.getLsbD_of_holds {F : Field} {a : Byte} (h : F.holds a = true) {i : Nat} (hi : F.bits ≤ i) :
    a.getLsbD i = false :=
  BitVec.testBit_toNat a ▸ Nat.testBit_lt_two_pow ((Field.holds_iff.1 h).trans_le (Nat.pow_le_pow_right two_pos hi))

/-- The elements of a GF(2^4) byte are its low and its high nibble. -/
theorem Field.gf16_elements (x : Byte) : Field.gf16.element x 0 = x &&& 0x0F#8 ∧ Field.gf16.element x 1 = x >>> 4 := by
  refine ⟨rfl, BitVec.eq_of_getLsbD_eq fun i _ => ?_⟩
  rw [getLsbD_element, BitVec.getLsbD_ushiftRight]
  by_cases hi : i < 4
  · simp [Field.bits, hi]
  · simp [Field.bits, hi, BitVec.getLsbD_of_ge x (4 + i) (by omega)]

theorem Field.gf16_element_join {hi lo : Byte} (hhi : Field.gf16.holds hi = true) (hlo : Field.gf16.holds lo = true) :
    Field.gf16.element (hi <<< 4 ||| lo) 0 = lo ∧ Field.gf16.element (hi <<< 4 ||| lo) 1 = hi := by
  constructor
  · refine BitVec.eq_of_getLsbD_eq fun i _ => ?_
    rw [getLsbD_element]
    by_cases h : i < 4
    · simp [bits, h]
    · simp [bits, h, getLsbD_of_holds hlo (Nat.not_lt.1 h)]
  · refine BitVec.eq_of_getLsbD_eq fun i hi8 => ?_
    rw [getLsbD_element, BitVec.getLsbD_or, getLsbD_of_holds hlo (Nat.le_add_right (bits .gf16 * 1) i), Bool.or_false]
    by_cases h : i < 4
    · have hbyte : 4 + i < 8 := by omega
      simp [bits, h, hbyte, BitVec.getLsbD_eq_getElem hi8]
    · simp [bits, h, getLsbD_of_holds hhi (Nat.not_lt.1 h)]

section

variable {p : Params} (hp : paramsLegal p = true) {F : Field} {b c : Byte} (hb : F.holds b = true) (hc : F.holds c = true)

include hp hc

/-- R154: mulb scales each packed element. -/
theorem element_mulb (x : Byte) {j : Nat} (hj : j < perByte F) :
    F.element (mulb p F c x) j = mulF p F c (F.element x j) := by
  cases F with
  | gf2 =>
    obtain rfl | rfl := Field.gf2_holds hc
    · exact (Field.element_zero _ j).trans (zero_mulF hp (Field.gf2.holds_element x j)).symm
    · exact (one_mulF hp (Field.gf2.holds_element x j)).symm
  | gf16 =>
    obtain ⟨hx0, hx1⟩ := Field.gf16_elements x
    obtain ⟨h0, h1⟩ := Field.gf16_element_join (holds_mulF hp hc (Field.gf16.holds_element x 1))
      (holds_mulF hp hc (Field.gf16.holds_element x 0))
    rw [mulb, ← hx0, ← hx1]
    obtain rfl | rfl : j = 0 ∨ j = 1 := by
      have hlt : j < 2 := hj
      omega
    · exact h0
    · exact h1
  | gf256 =>
    obtain rfl : j = 0 := Nat.lt_one_iff.1 hj
    have hwhole : ∀ y : Byte, Field.gf256.element y 0 = y := fun y => BitVec.and_allOnes
    rw [hwhole, hwhole]
    rfl

theorem mulb_xor (x y : Byte) : mulb p F c (x ^^^ y) = mulb p F c x ^^^ mulb p F c y :=
  F.ext_element fun j hj => by
    simp only [element_mulb hp hc _ hj, Field.element_xor, mulF_xor hp hc (F.holds_element x j) (F.holds_element y j)]

include hb

theorem mulb_mulF (x : Byte) : mulb p F (mulF p F b c) x = mulb p F b (mulb p F c x) :=
  F.ext_element fun j hj => by
    simp only [element_mulb hp hb _ hj, element_mulb hp hc _ hj, element_mulb hp (holds_mulF hp hb hc) _ hj,
      mulF_assoc hp hb hc (F.holds_element x j)]

theorem xor_mulb (x : Byte) : mulb p F (b ^^^ c) x = mulb p F b x ^^^ mulb p F c x :=
  F.ext_element fun j hj => by
    simp only [element_mulb hp (Field.holds_xor hb hc) _ hj, Field.element_xor, element_mulb hp hb _ hj,
      element_mulb hp hc _ hj, xor_mulF hp hb hc (F.holds_element x j)]

omit hb hc

theorem one_mulb (x : Byte) : mulb p F 1#8 x = x :=
  F.ext_element fun j hj => by rw [element_mulb hp F.holds_one _ hj, one_mulF hp (F.holds_element x j)]

theorem zero_mulb (x : Byte) : mulb p F 0#8 x = 0#8 :=
  F.ext_element fun j hj => by
    rw [element_mulb hp F.holds_zero _ hj, zero_mulF hp (F.holds_element x j), Field.element_zero]

end

/-- Settles O28: the element operations are those of a quotient ring, and mulb applies them to each packed element. -/
theorem fieldLaws : Obligations.FieldLaws := by
  intro p F a b c x y hp ha hb hc
  replace ha := Field.holds_of_lt ha
  replace hb := Field.holds_of_lt hb
  replace hc := Field.holds_of_lt hc
  exact ⟨BitVec.xor_comm a b, mulF_comm hp ha hb, BitVec.xor_assoc a b c, mulF_assoc hp ha hb hc, mulF_xor hp ha hb hc,
    BitVec.xor_zero, mulF_one hp ha, mulF_zero hp ha, BitVec.xor_self, Field.lt_of_holds (Field.holds_xor ha hb),
    Field.lt_of_holds (holds_mulF hp ha hb), mulb_xor hp hc x y, mulb_mulF hp hb hc x⟩

/-! ### GF.ADD, GF.MUL and GF.INV (R155-R157) -/

/-- Steps 2 and 4 of R272 pass for a field code and elements of its field. -/
theorem withElements_of_holds {fld : BitVec 2} {operands : List Byte} {s : State} {body : Result} (hfld : fld ≠ 3#2)
    (h : ∀ a ∈ operands, (Field.ofCode fld).holds a = true) : withElements fld operands s body = body :=
  if_pos (Bool.and_eq_true_iff.2 ⟨bne_iff_ne.2 hfld, List.all_eq_true.2 h⟩)

theorem exec_gfAdd {fld : BitVec 2} {a b : Byte} (hfld : fld ≠ 3#2) (ha : (Field.ofCode fld).holds a = true)
    (hb : (Field.ofCode fld).holds b = true) (s : State) :
    exec (.gfAdd fld a b) s = .next (complete .none (setResult (addF a b) s)) :=
  withElements_of_holds hfld (by simp [ha, hb])

theorem exec_gfMul {fld : BitVec 2} {a b : Byte} (hfld : fld ≠ 3#2) (ha : (Field.ofCode fld).holds a = true)
    (hb : (Field.ofCode fld).holds b = true) (s : State) :
    exec (.gfMul fld a b) s = .next (complete .none (setResult (mulF s.params (Field.ofCode fld) a b) s)) :=
  withElements_of_holds hfld (by simp [ha, hb])

theorem exec_gfInv {fld : BitVec 2} {a : Byte} (hfld : fld ≠ 3#2) (ha : (Field.ofCode fld).holds a = true) (hne : a ≠ 0#8)
    (s : State) :
    exec (.gfInv fld a) s = .next (complete .none (setResult (invF s.params (Field.ofCode fld) a) s)) :=
  (withElements_of_holds hfld (by simp [ha])).trans (if_neg hne)

theorem exec_gfInv_zero {fld : BitVec 2} (hfld : fld ≠ 3#2) (s : State) :
    exec (.gfInv fld 0#8) s = .next (complete .divZero s) :=
  withElements_of_holds hfld (by simp)

/-- RESULT holds the byte, zero-extended (R31). -/
theorem toNat_result (r : Byte) : (r.setWidth 32).toNat = r.toNat := BitVec.toNat_setWidth_of_le (by decide)

/-- Settles O24: the operands pass their checks, and `add_F` is XOR. -/
theorem gfAddResult : Obligations.GfAddResult := fun _ _ _ s hfld ha hb =>
  exec_gfAdd hfld (Field.holds_of_lt ha) (Field.holds_of_lt hb) s

/-- Settles O27: 0 is an element of every field, so GF.INV comes to its zero test. -/
theorem gfInvOfZeroFails : Obligations.GfInvOfZeroFails := fun _ s hfld => exec_gfInv_zero hfld s

/-- Settles O25: in each field the result is `mul_F`, the remainder of the carry-less product. -/
theorem gfMulIsProductModuloPolynomial : Obligations.GfMulIsProductModuloPolynomial := by
  intro fld a b s hp hfld ha hb
  replace ha := Field.holds_of_lt ha
  replace hb := Field.holds_of_lt hb
  have hlt := Field.lt_of_holds (holds_mulF hp ha hb)
  have hrem := exists_mulF_xor_clmul hp ha hb
  rw [← toNat_result] at hlt hrem
  refine ⟨_, exec_gfMul hfld ha hb s, rfl, hlt, ?_, ?_, ?_⟩
  · rintro rfl
    rfl
  · rintro rfl
    exact hrem
  · rintro rfl
    exact hrem

/-- Settles O26: `inv_F` is an inverse, and an element has at most one. -/
theorem gfInvIsTheUniqueInverse : Obligations.GfInvIsTheUniqueInverse := by
  intro fld a s hp hfld ha hne
  replace ha := Field.holds_of_lt ha
  have hinv := holds_invF hp ha
  have hone : mulF s.params (Field.ofCode fld) a (invF s.params (Field.ofCode fld) a) = 1#8 :=
    (mulF_comm hp ha hinv).trans (invF_mulF hp ha hne)
  refine ⟨_, exec_gfInv hfld ha hne s, rfl, ?_, ?_, fun b hb hab => ?_⟩
  · rw [complete_result, setResult_result, toNat_result]
    exact Field.lt_of_holds hinv
  · rw [complete_result, setResult_result, BitVec.setWidth_setWidth_of_le _ (by decide), BitVec.setWidth_eq]
    exact hone
  · rw [complete_result, setResult_result, mulF_inverse_unique hp ha hinv (Field.holds_of_lt hb) hone hab]

/-! ### GF.AXPY (R158) -/

theorem symAt_add_div {S i t : Nat} (ht : t < S) : (symAt S i + t) / S = i := by
  rw [symAt, Nat.add_comm, Nat.add_mul_div_right _ _ (by omega), Nat.div_eq_of_lt ht, Nat.zero_add]

/-- Symbols do not overlap: each of their bytes has its own address. -/
theorem symAt_add_inj {S i j t u : Nat} (ht : t < S) (hu : u < S) (h : symAt S i + t = symAt S j + u) : i = j ∧ t = u := by
  obtain rfl : i = j := by rw [← symAt_add_div (i := i) ht, h, symAt_add_div hu]
  exact ⟨rfl, Nat.add_left_cancel h⟩

theorem exists_symAt_add {S i n a : Nat} (ha : symAt S i ≤ a ∧ a < symAt S i + n) : ∃ t < n, a = symAt S i + t := by
  obtain ⟨t, rfl⟩ := Nat.exists_eq_add_of_le ha.1
  exact ⟨t, Nat.lt_of_add_lt_add_left ha.2, rfl⟩

/-- What the first n rounds of the loop of R158 add to the byte at address a: COEFF times the byte of sym(SRC) at the same place,
inside sym(DST), and nothing elsewhere. -/
def axpyTerm (p : Params) (F : Field) (S : Nat) (coeff : Byte) (dst src : Nat) (m : Memory) (n a : Nat) : Byte :=
  if symAt S dst ≤ a ∧ a < symAt S dst + n then mulb p F coeff (m.read (symAt S src + (a - symAt S dst))) else 0#8

section

variable {p : Params} {F : Field} {S : Nat} {coeff : Byte} {dst src : Nat} {m : Memory}

theorem axpyTerm_inside {n t : Nat} (ht : t < n) :
    axpyTerm p F S coeff dst src m n (symAt S dst + t) = mulb p F coeff (m.read (symAt S src + t)) := by
  rw [axpyTerm, if_pos ⟨Nat.le_add_right _ _, Nat.add_lt_add_left ht _⟩, Nat.add_sub_cancel_left]

theorem axpyTerm_outside {n a : Nat} (ha : ¬(symAt S dst ≤ a ∧ a < symAt S dst + n)) :
    axpyTerm p F S coeff dst src m n a = 0#8 := if_neg ha

theorem axpyTerm_succ_of_ne {n a : Nat} (ha : a ≠ symAt S dst + n) :
    axpyTerm p F S coeff dst src m (n + 1) a = axpyTerm p F S coeff dst src m n a := by
  have hiff : (symAt S dst ≤ a ∧ a < symAt S dst + (n + 1)) ↔ symAt S dst ≤ a ∧ a < symAt S dst + n := by omega
  simp only [axpyTerm, hiff]

/-- The first n rounds write no byte from n on, of any symbol. -/
theorem axpyTerm_ahead {n t : Nat} (hn : n ≤ t) (ht : t < S) (i : Nat) :
    axpyTerm p F S coeff dst src m n (symAt S i + t) = 0#8 := by
  refine axpyTerm_outside fun hin => ?_
  obtain ⟨u, hu, heq⟩ := exists_symAt_add hin
  have := (symAt_add_inj ht (by omega) heq).2
  omega

theorem read_axpy_prefix {n : Nat} (hn : n ≤ S) (a : Nat) :
    ((List.range n).foldl (axpyByte p F S coeff dst src) m).read a = m.read a ^^^ axpyTerm p F S coeff dst src m n a := by
  induction n generalizing a with
  | zero =>
    rw [axpyTerm_outside (by omega), BitVec.xor_zero]
    rfl
  | succ n ih =>
    have hdone := ih (Nat.le_of_succ_le hn)
    rw [List.range_succ, List.foldl_append, List.foldl_cons, List.foldl_nil, axpyByte]
    by_cases ha : a = symAt S dst + n
    · subst ha
      rw [Memory.read_write_same, hdone, hdone, axpyTerm_ahead le_rfl hn, axpyTerm_ahead le_rfl hn,
        BitVec.xor_zero, BitVec.xor_zero, axpyTerm_inside n.lt_succ_self]
      rfl
    · rw [Memory.read_write_other _ _ ha, hdone, axpyTerm_succ_of_ne ha]

/-- R158: every byte of BLK after GF.AXPY. -/
theorem read_axpy (a : Nat) : (axpy p F S coeff dst src m).read a = m.read a ^^^ axpyTerm p F S coeff dst src m S a :=
  read_axpy_prefix le_rfl a

/-- A GF.AXPY that does not write the source of another leaves what the other adds. -/
theorem axpyTerm_axpy {coeff' : Byte} {dst' src' : Nat} (hne : dst ≠ src') (a : Nat) :
    axpyTerm p F S coeff' dst' src' (axpy p F S coeff dst src m) S a = axpyTerm p F S coeff' dst' src' m S a := by
  by_cases ha : symAt S dst' ≤ a ∧ a < symAt S dst' + S
  · obtain ⟨t, ht, rfl⟩ := exists_symAt_add ha
    have hsrc : axpyTerm p F S coeff dst src m S (symAt S src' + t) = 0#8 := by
      refine axpyTerm_outside fun hin => ?_
      obtain ⟨u, hu, heq⟩ := exists_symAt_add hin
      exact hne (symAt_add_inj ht hu heq).1.symm
    rw [axpyTerm_inside ht, axpyTerm_inside ht, read_axpy, hsrc, BitVec.xor_zero]
  · rw [axpyTerm_outside ha, axpyTerm_outside ha]

/-- R162: two runs of the loop of R158 commute when neither writes the other's source. -/
theorem read_axpy_comm {coeff' : Byte} {dst' src' : Nat} (h : dst ≠ src') (h' : dst' ≠ src) (a : Nat) :
    (axpy p F S coeff' dst' src' (axpy p F S coeff dst src m)).read a
      = (axpy p F S coeff dst src (axpy p F S coeff' dst' src' m)).read a := by
  simp only [read_axpy, axpyTerm_axpy h, axpyTerm_axpy h']
  rw [BitVec.xor_assoc, BitVec.xor_assoc, BitVec.xor_comm (axpyTerm ..)]

end

/-- GF.AXPY with its operands in range (R158). -/
theorem exec_gfAxpy {coeff dst src : Byte} {s : State} (hc : s.configured = true) (hcoeff : coeff.toNat < s.field.size)
    (hdst : dst.toNat < s.k) (hsrc : src.toNat < s.k) :
    exec (.gfAxpy coeff dst src) s =
      .next (complete .none { s with blk := axpy s.params s.field s.symSize coeff dst.toNat src.toNat s.blk }) :=
  (withInstance_of_configured hc).trans (if_pos (by simp [Field.holds_of_lt hcoeff, hdst, hsrc]))

/-- Settles O29: the loop adds its term to each byte of sym(DST) and to no other. -/
theorem gfAxpyResult : Obligations.GfAxpyResult := by
  intro coeff dst src s hc hcoeff hdst hsrc
  refine ⟨_, exec_gfAxpy hc hcoeff hdst hsrc, rfl, fun b hb => ?_, fun a ha => ?_⟩
  · exact (read_axpy ..).trans (congrArg _ (axpyTerm_inside hb))
  · exact (read_axpy ..).trans ((congrArg _ (axpyTerm_outside ha)).trans BitVec.xor_zero)

/-- Settles O30: the byte itself is 1 times itself, and the coefficients add. -/
theorem gfAxpyOnItself : Obligations.GfAxpyOnItself := by
  intro coeff dst s hinv hc hcoeff hdst
  obtain ⟨t, ht, -, hsym, hother⟩ := gfAxpyResult coeff dst dst s hc hcoeff hdst hdst
  have hscale : ∀ b, b < s.symSize → t.blk.read (dst.toNat * s.symSize + b) =
      mulb s.params s.field (coeff ^^^ 1#8) (s.blk.read (dst.toNat * s.symSize + b)) := fun b hb => by
    rw [hsym b hb, xor_mulb hinv.legal (Field.holds_of_lt hcoeff) s.field.holds_one, one_mulb hinv.legal, BitVec.xor_comm]
  refine ⟨t, ht, hscale, ?_, ?_⟩
  · rintro rfl b hb
    rw [hscale b hb, BitVec.xor_self]
    exact zero_mulb hinv.legal _
  · rintro rfl a
    by_cases ha : dst.toNat * s.symSize ≤ a ∧ a < dst.toNat * s.symSize + s.symSize
    · obtain ⟨b, hb, rfl⟩ := exists_symAt_add ha
      exact (hscale b hb).trans (one_mulb hinv.legal _)
    · exact hother a ha

/-- Settles O31: the unit that runs the second command differs from the first one's in BLK and the completion fields only. -/
theorem gfAxpyCommutes : Obligations.GfAxpyCommutes := by
  intro c₁ d₁ s₁ c₂ d₂ s₂ s hc hc₁ hd₁ hs₁ hc₂ hd₂ hs₂ hne₁ hne₂
  refine ⟨_, _, _, _, exec_gfAxpy hc hc₁ hd₁ hs₁, exec_gfAxpy hc hc₂ hd₂ hs₂, exec_gfAxpy hc hc₂ hd₂ hs₂,
    exec_gfAxpy hc hc₁ hd₁ hs₁, fun a => ?_⟩
  exact read_axpy_comm (BitVec.toNat_ne_iff_ne.2 hne₁) (BitVec.toNat_ne_iff_ne.2 hne₂) a

end Sys2Proof.Machine

namespace Sys2Proof.Machine

open Sys2Proof

/-! ## The coefficient generator (spec/42_coefficient_generator R180-R189)

### Zero and nonzero vectors -/

theorem nonzero_eq_true_iff {v : List Byte} : nonzero v = true ↔ ∃ x ∈ v, x ≠ 0#8 := by
  simp [nonzero, List.any_eq_true]

theorem nonzero_eq_false_iff {v : List Byte} : nonzero v = false ↔ ∀ x ∈ v, x = 0#8 := by
  simp [nonzero, List.any_eq_false]

theorem nonzero_unitVec {k i : Nat} (h : i < k) : nonzero (unitVec k i) = true :=
  nonzero_eq_true_iff.2 ⟨1#8, List.mem_map.2 ⟨i, List.mem_range.2 h, if_pos rfl⟩, by decide⟩

/-! ### One attempt (R182, R183) -/

theorem upper16_eq (s : Word) : upper16 s = s.toNat / 2 ^ 16 := by
  have hlt := s.isLt
  rw [upper16, BitVec.extractLsb'_toNat, Nat.shiftRight_eq_div_pow]
  exact Nat.mod_eq_of_lt (by omega)

theorem toNat_sparseEntry (F : Field) (d u w : Nat) :
    (sparseEntry F d u w).toNat = if u < 2 * d then 1 + w % (F.size - 1) else 0 := by
  have hq : 2 ≤ F.size ∧ F.size ≤ 256 := by cases F <;> decide
  have hmod := Nat.mod_lt w (show 0 < F.size - 1 by omega)
  unfold sparseEntry
  split
  · exact Nat.mod_eq_of_lt (by omega)
  · rfl

theorem sparseEntry_density_zero (F : Field) (u w : Nat) : sparseEntry F 0 u w = 0#8 := if_neg (Nat.not_lt_zero u)

/-- Two steps of the LCG an entry (R183). -/
theorem iterate_lcg_succ_entry (i m : Nat) (s : Word) : lcg^[2 * (i + 1) + m] s = lcg^[2 * i + m] (lcg (lcg s)) := by
  rw [Nat.mul_succ, Nat.add_right_comm, Function.iterate_add_apply]
  rfl

/-- Entry i of an attempt takes the iterates 2i+1 and 2i+2 of the LCG. -/
theorem getD_sparseAttempt (F : Field) (d : Nat) {n i : Nat} (s : Word) (h : i < n) :
    (sparseAttempt F d n s).getD i 0#8
      = sparseEntry F d (upper16 (lcg^[2 * i + 1] s)) (upper16 (lcg^[2 * i + 2] s)) := by
  induction n generalizing i s with
  | zero => exact absurd h (Nat.not_lt_zero i)
  | succ n ih =>
    cases i with
    | zero => simp only [sparseAttempt, List.getD_cons_zero, Nat.mul_zero, Nat.zero_add, Function.iterate_succ_apply,
        Function.iterate_zero_apply]
    | succ i =>
      rw [iterate_lcg_succ_entry, iterate_lcg_succ_entry, sparseAttempt, List.getD_cons_succ]
      exact ih (lcg (lcg s)) (Nat.lt_of_succ_lt_succ h)

theorem nonzero_sparseAttempt_density_zero (F : Field) (n : Nat) (s : Word) : nonzero (sparseAttempt F 0 n s) = false := by
  induction n generalizing s with
  | zero => rfl
  | succ n ih =>
    rw [sparseAttempt, sparseEntry_density_zero]
    exact ih _

/-! ### The re-rolls and the fallback (R183, R184, R189) -/

/-- Attempts that are all zero pass the turn to the seed after them. -/
theorem expandFrom_add_of_zero {F : Field} {d k seed n : Nat} (m : Nat) {s : Word}
    (h : ∀ j < n, nonzero (sparseAttempt F d k (s + BitVec.ofNat 32 j)) = false) :
    expandFrom F d k seed (n + m) s = expandFrom F d k seed m (s + BitVec.ofNat 32 n) := by
  induction n generalizing m with
  | zero => rw [Nat.zero_add, BitVec.add_zero]
  | succ n ih =>
    rw [Nat.add_right_comm, Nat.add_assoc, ih (m + 1) fun j hj => h j (Nat.lt_succ_of_lt hj), expandFrom,
      if_neg (Bool.eq_false_iff.1 (h n n.lt_succ_self)), BitVec.add_assoc, BitVec.ofNat_add]

theorem nonzero_expandFrom {F : Field} {d k seed : Nat} (hk : 0 < k) (n : Nat) (s : Word) :
    nonzero (expandFrom F d k seed n s) = true := by
  induction n generalizing s with
  | zero => exact nonzero_unitVec (Nat.mod_lt seed hk)
  | succ n ih =>
    unfold expandFrom
    split
    · next hne => exact hne
    · exact ih _

theorem expand_of_attempt {p : Params} {seed : Word} {d k att : Nat} {F : Field} (hatt : att ≤ p.rerollMax)
    (hzero : ∀ j < att, nonzero (sparseAttempt F d k (seed + BitVec.ofNat 32 j)) = false)
    (hne : nonzero (sparseAttempt F d k (seed + BitVec.ofNat 32 att)) = true) :
    expand p seed d k F = sparseAttempt F d k (seed + BitVec.ofNat 32 att) := by
  have hsplit : p.rerollMax + 1 = att + (p.rerollMax - att + 1) := by omega
  rw [expand, hsplit, expandFrom_add_of_zero _ hzero, expandFrom, if_pos hne]

theorem expand_of_zero {p : Params} {seed : Word} {d k : Nat} {F : Field}
    (hzero : ∀ j ≤ p.rerollMax, nonzero (sparseAttempt F d k (seed + BitVec.ofNat 32 j)) = false) :
    expand p seed d k F = unitVec k (seed.toNat % k) :=
  expandFrom_add_of_zero 0 fun j hj => hzero j (Nat.le_of_lt_succ hj)

theorem expand_density_zero (p : Params) (seed : Word) (k : Nat) (F : Field) :
    expand p seed 0 k F = unitVec k (seed.toNat % k) :=
  expand_of_zero fun _ _ => nonzero_sparseAttempt_density_zero F k _

/-- Settles O34: every attempt and the unit vector are over F, and expand ends at a nonzero one of them. -/
theorem expandGivesNonzeroVector : Obligations.ExpandGivesNonzeroVector := fun p seed d k F hk =>
  ⟨length_expand p seed d k F, fun _ hx => Field.lt_of_holds (holds_of_mem_expandFrom hx),
    nonzero_eq_true_iff.1 (nonzero_expandFrom hk _ _)⟩

/-- Settles O35: by induction on the entry of an attempt, and on the attempts that are all zero. -/
theorem expandRerollsBySeedIncrement : Obligations.ExpandRerollsBySeedIncrement := by
  refine ⟨fun F d n i s hi => ⟨length_sparseAttempt F d n s, ?_⟩, fun p seed d k att F hatt hzero hne => ?_,
    fun p seed d k F hzero => ?_⟩
  · rw [getD_sparseAttempt F d s hi, toNat_sparseEntry, upper16_eq, upper16_eq]
    rfl
  · exact expand_of_attempt hatt (fun j hj => nonzero_eq_false_iff.2 (hzero j hj)) (nonzero_eq_true_iff.2 hne)
  · exact expand_of_zero fun j hj => nonzero_eq_false_iff.2 (hzero j hj)

/-! ### GEN.DENSE and GEN.SPARSE (R186, R187) -/

theorem read_writeCvec_inside {v : List Byte} {i : Nat} (hi : i < v.length) (s : State) :
    (writeCvec v s).cvec.read i = v.getD i 0#8 :=
  (Memory.read_writeRun ..).trans (if_pos ⟨Nat.zero_le i, by omega⟩)

theorem read_writeCvec_outside {v : List Byte} {i : Nat} (hi : v.length ≤ i) (s : State) :
    (writeCvec v s).cvec.read i = s.cvec.read i :=
  (Memory.read_writeRun ..).trans (if_neg (by omega))

theorem toNat_denseEntry (F : Field) (r : Word) : (denseEntry F r).toNat = r.toNat % F.size := by
  have hq : 0 < F.size ∧ F.size ≤ 256 := by cases F <;> decide
  have hmod := Nat.mod_lt r.toNat hq.1
  exact Nat.mod_eq_of_lt (by omega)

theorem getD_dense (F : Field) {rs : List Word} {i : Nat} (h : i < rs.length) :
    (dense F rs).getD i 0#8 = denseEntry F (rs.getD i 0#32) := by simp [dense, List.getD, h]

theorem length_dense_take (F : Field) {rs : List Word} {k : Nat} (h : k ≤ rs.length) : (dense F (rs.take k)).length = k := by
  rw [length_dense, List.length_take_of_le h]

/-- The vector of the first k draws (R186). -/
theorem getD_dense_take (F : Field) {rs : List Word} {k i : Nat} (h : k ≤ rs.length) (hi : i < k) :
    (dense F (rs.take k)).getD i 0#8 = denseEntry F (rs.getD i 0#32) := by
  rw [getD_dense F (by rwa [List.length_take_of_le h])]
  simp [List.getD, hi]

theorem exec_genDense {s : State} (hc : s.configured = true) (hdraws : s.k ≤ s.draws.length) :
    exec .genDense s =
      .next (complete .none
        (writeCvec (dense s.field (s.draws.take s.k)) { s with draws := s.draws.drop s.k })) :=
  (withInstance_of_configured hc).trans (withDraws_of_offered hdraws)

theorem exec_genSparse {s : State} (hc : s.configured = true) :
    exec .genSparse s =
      .next (complete .none (writeCvec (expand s.params s.genSeed s.dens s.k s.field) s)) :=
  withInstance_of_configured hc

/-- Settles O32: the k draws taken are the vector written, reduced modulo the field size. -/
theorem genDenseResult : Obligations.GenDenseResult := by
  intro s hc hdraws
  have hlen := length_dense_take s.field hdraws
  refine ⟨_, exec_genDense hc hdraws, rfl, fun i hi => ?_, fun i hi => ?_⟩
  · rw [complete_cvec, read_writeCvec_inside (hlen.symm ▸ hi), getD_dense_take s.field hdraws hi, toNat_denseEntry]
  · exact read_writeCvec_outside (hlen.symm ▸ hi) _

/-- Settles O33: the vector written has k entries. -/
theorem genSparseResult : Obligations.GenSparseResult := by
  intro s hc
  have hlen := length_expand s.params s.genSeed s.dens s.k s.field
  refine ⟨_, exec_genSparse hc, rfl, fun i hi => ?_, fun i hi => ?_⟩
  · exact read_writeCvec_inside (hlen.symm ▸ hi) s
  · exact read_writeCvec_outside (hlen.symm ▸ hi) s

/-- Settles O36: no 16-bit draw is below 0, so every attempt is all zero. -/
theorem zeroDensityGivesUnitVector : Obligations.ZeroDensityGivesUnitVector := by
  intro s hc hdens
  obtain ⟨t, ht, -, hcvec, -⟩ := genSparseResult s hc
  have hzero : s.dens = 0 := congrArg BitVec.toNat hdens
  refine ⟨t, ht, fun i hi => ?_⟩
  rw [hcvec i hi, hzero, expand_density_zero, getD_unitVec _ _ _ hi]

end Sys2Proof.Machine

namespace Sys2Proof.Machine

open Sys2Proof

/-! ## The encoder (spec/43_encoder R200-R209) and its payloads (spec/45_payload_codec R250-R259)

### The body of a coded payload (R202) -/

theorem xorSum_congr {n : Nat} {f g : Nat → Byte} (h : ∀ i < n, f i = g i) : xorSum n f = xorSum n g := by
  induction n with
  | zero => rfl
  | succ n ih => rw [xorSum_succ, xorSum_succ, ih fun i hi => h i (by omega), h n (by omega)]

theorem getD_codedBody (p : Params) (F : Field) {S b : Nat} (v : List Byte) (blk : Memory) (hb : b < S) :
    (codedBody p F S v blk).getD b 0#8 = combination p F S v blk b := by
  simp only [codedBody, List.getD, List.getElem?_map, List.getElem?_range hb]
  rfl

/-- The combination with a unit vector is the symbol itself (R208). -/
theorem combination_unitVec {p : Params} (hp : paramsLegal p = true) (F : Field) (S : Nat) {k i : Nat} (hi : i < k)
    (blk : Memory) (b : Nat) : combination p F S (unitVec k i) blk b = blk.read (symAt S i + b) := by
  rw [combination, length_unitVec, xorSum_eq_single hi fun c hc hne => ?_, getD_unitVec k i i hi, if_pos rfl, one_mulb hp]
  rw [getD_unitVec k i c hc, if_neg hne, zero_mulb hp]

/-! ### The packed vector (R254, R262) -/

theorem Field.toNat_element (F : Field) (x : Byte) (j : Nat) :
    (F.element x j).toNat = x.toNat / 2 ^ (F.bits * j) % F.size := by
  have hmask : (BitVec.ofNat 8 (2 ^ F.bits - 1)).toNat = 2 ^ F.bits - 1 := by cases F <;> rfl
  rw [element, BitVec.toNat_and, BitVec.toNat_ushiftRight, hmask, Nat.and_two_pow_sub_one_eq_mod,
    Nat.shiftRight_eq_div_pow, size_eq]

theorem Field.element_or (F : Field) (x y : Byte) (j : Nat) : F.element (x ||| y) j = F.element x j ||| F.element y j :=
  BitVec.eq_of_getLsbD_eq fun i _ => by
    simp only [getLsbD_element, BitVec.getLsbD_or, Bool.and_or_distrib_left]

theorem Field.bits_mul_perByte (F : Field) : F.bits * perByte F = 8 := by cases F <;> rfl

/-- The bits of element i lie below those of the elements after it. -/
theorem Field.place_lt {F : Field} {r i n : Nat} (hr : r < F.bits) (hi : i < n) : F.bits * i + r < F.bits * n :=
  calc F.bits * i + r
    _ < F.bits * (i + 1) := Nat.add_lt_add_left hr _
    _ ≤ F.bits * n := Nat.mul_le_mul_left _ hi

/-- An element shifted to place b of a byte is the byte's element b, and the others are 0. -/
theorem Field.element_shiftLeft {F : Field} {a : Byte} (ha : F.holds a = true) {b j : Nat} (hj : j < perByte F) :
    F.element (a <<< (F.bits * b)) j = if j = b then a else 0#8 := by
  refine BitVec.eq_of_getLsbD_eq fun r _ => ?_
  rw [getLsbD_element, BitVec.getLsbD_shiftLeft]
  by_cases hr : r < F.bits
  · obtain hlt | rfl | hgt := Nat.lt_trichotomy j b
    · simp [place_lt hr hlt, hlt.ne]
    · have hbyte : F.bits * j + r < 8 := F.bits_mul_perByte ▸ place_lt hr hj
      simp [hr, hbyte]
    · have habove : F.bits ≤ F.bits * j + r - F.bits * b := by
        have hplace : F.bits * b + F.bits ≤ F.bits * j := Nat.mul_le_mul_left F.bits hgt
        omega
      simp [getLsbD_of_holds ha habove, hgt.ne']
  · have hzero : a.getLsbD r = false := getLsbD_of_holds ha (Nat.not_lt.1 hr)
    by_cases hjb : j = b <;> simp [hr, hjb, hzero]

/-- Byte j of a packed vector with only its first n elements put in. -/
def packElements (F : Field) (v : List Byte) (j n : Nat) : Byte :=
  (List.range n).foldl (fun acc b => acc ||| (v.getD (perByte F * j + b) 0#8 <<< (F.bits * b))) 0#8

theorem packByte_eq_packElements (F : Field) (v : List Byte) (j : Nat) :
    packByte F v j = packElements F v j (perByte F) := rfl

theorem packElements_succ (F : Field) (v : List Byte) (j n : Nat) :
    packElements F v j (n + 1) = packElements F v j n ||| (v.getD (perByte F * j + n) 0#8 <<< (F.bits * n)) := by
  simp [packElements, List.range_succ]

theorem element_packElements {F : Field} {v : List Byte} (hv : IsOver F v) (j : Nat) {r : Nat} (hr : r < perByte F) (n : Nat) :
    F.element (packElements F v j n) r = if r < n then v.getD (perByte F * j + r) 0#8 else 0#8 := by
  induction n with
  | zero => exact F.element_zero r
  | succ n ih =>
    rw [packElements_succ, Field.element_or, ih, Field.element_shiftLeft (hv _) hr]
    obtain hlt | rfl | hgt := Nat.lt_trichotomy r n
    · simp [hlt, hlt.ne, Nat.lt_succ_of_lt hlt]
    · simp
    · simp [hgt.ne', Nat.not_lt.2 hgt.le, Nat.not_lt.2 (Nat.succ_le_of_lt hgt)]

/-- The elements of a packed byte are its part of the vector, 0 beyond the vector's end. -/
theorem element_packByte {F : Field} {v : List Byte} (hv : IsOver F v) (j : Nat) {r : Nat} (hr : r < perByte F) :
    F.element (packByte F v j) r = v.getD (perByte F * j + r) 0#8 := by
  rw [packByte_eq_packElements, element_packElements hv j hr, if_pos hr]

theorem getD_denseHeader (F : Field) (v : List Byte) {H j : Nat} (hj : 2 + j < H) :
    (denseHeader F v H).getD (2 + j) 0#8 = packByte F v j := by
  have hlt : j < H - 2 := by omega
  simp [denseHeader, Nat.add_comm 2 j, List.getD, hlt]

/-- Element i of the vector stands at place `i % perByte` of byte `2 + i / perByte` of the header. -/
theorem element_denseHeader {F : Field} {v : List Byte} (hv : IsOver F v) {H i : Nat} (hi : 2 + i / perByte F < H) :
    F.element ((denseHeader F v H).getD (2 + i / perByte F) 0#8) (i % perByte F) = v.getD i 0#8 := by
  have hper : 0 < perByte F := by cases F <;> decide
  rw [getD_denseHeader F v hi, element_packByte hv _ (Nat.mod_lt i hper), Nat.div_add_mod]

theorem unpackEntry_eq_element (F : Field) (h : List Byte) (i : Nat) :
    unpackEntry F h i = F.element (h.getD (2 + i / perByte F) 0#8) (i % perByte F) := by
  rw [unpackEntry, Nat.shiftRight_eq_div_pow, ← Field.toNat_element, BitVec.ofNat_toNat, BitVec.setWidth_eq]

theorem packed_lt_headerSize (F : Field) {k i : Nat} (hi : i < k) : 2 + i / perByte F < headerSize F 0#2 k := by
  rw [headerSize, if_pos rfl]
  cases F <;> simp only [perByte, Field.bits, Nat.reduceDiv] <;> omega

/-- R254: what the dense header packs is unpacked again. -/
theorem unpackDense_denseHeader {F : Field} {v : List Byte} (hv : IsOver F v) {k : Nat} (hlen : v.length = k) :
    unpackDense F (denseHeader F v (headerSize F 0#2 k)) k = v := by
  refine List.ext_getElem (by simp [hlen]) fun i hi hi' => ?_
  rw [length_unpackDense] at hi
  calc (unpackDense F (denseHeader F v (headerSize F 0#2 k)) k)[i]
    _ = unpackEntry F (denseHeader F v (headerSize F 0#2 k)) i := by simp [unpackDense]
    _ = v.getD i 0#8 := by rw [unpackEntry_eq_element, element_denseHeader hv (packed_lt_headerSize F hi)]
    _ = v[i] := List.getD_eq_getElem _ _ hi'

/-! ### The three headers parse back (R259) -/

section

variable {p : Params} {F : Field} {k : Nat} {h : List Byte} (hF : h.getD 1 0#8 = F.code)

include hF

theorem parseVector_systematic {fmt : BitVec 2} (htag : h.getD 0 0#8 = tagSystematic) (hi : (h.getD 2 0#8).toNat < k) :
    parseVector p F fmt k h = some (unitVec k (h.getD 2 0#8).toNat) := by
  rw [parseVector, hF, htag, if_neg (not_not.2 rfl), if_pos rfl, if_neg (Nat.not_le.2 hi)]

theorem parseVector_dense (htag : h.getD 0 0#8 = tagDense) : parseVector p F 0#2 k h = some (unpackDense F h k) := by
  rw [parseVector, hF, htag, if_neg (not_not.2 rfl), if_neg (by decide), if_pos rfl, if_neg (by decide)]

theorem parseVector_sparse (htag : h.getD 0 0#8 = tagSparse) (hd : densityOk (headerDensity h).toNat = true) :
    parseVector p F 1#2 k h = some (expand p (headerSeed h) (headerDensity h).toNat k F) := by
  rw [parseVector, hF, htag, if_neg (not_not.2 rfl), if_neg (by decide), if_neg (by decide), if_pos rfl, if_neg (by decide),
    if_pos hd]

end

theorem headerSeed_sparseHeader (F : Field) (seed : Word) (d : BitVec 16) : headerSeed (sparseHeader F seed d) = seed := by
  change seed.extractLsb' 24 8 ++ seed.extractLsb' 16 8 ++ seed.extractLsb' 8 8 ++ seed.extractLsb' 0 8 = seed
  rw [BitVec.extractLsb'_append_extractLsb'_eq_extractLsb' (by rfl),
    BitVec.extractLsb'_append_extractLsb'_eq_extractLsb' (by rfl), BitVec.extractLsb'_append_extractLsb'_eq_extractLsb' (by rfl)]
  exact BitVec.extractLsb'_eq_self

theorem headerDensity_sparseHeader (F : Field) (seed : Word) (d : BitVec 16) : headerDensity (sparseHeader F seed d) = d := by
  change d.extractLsb' 8 8 ++ d.extractLsb' 0 8 = d
  rw [BitVec.extractLsb'_append_extractLsb'_eq_extractLsb' (by rfl)]
  exact BitVec.extractLsb'_eq_self

theorem getD_sysHeader_pad (F : Field) (i : Nat) {H a : Nat} (ha : 3 ≤ a) : (sysHeader F i H).getD a 0#8 = 0#8 := by
  obtain ⟨n, rfl⟩ := Nat.exists_eq_add_of_le' ha
  rw [sysHeader, List.getD_cons_succ, List.getD_cons_succ, List.getD_cons_succ, List.getD, List.getElem?_replicate]
  split <;> rfl

/-! ### The payload that ENC.WRITE frames (R200-R203, R258) -/

/-- A header of H bytes that parses to `v`, and a body of S bytes, the combination of the block in BLK with `v`. -/
structure Payload (s : State) (v hdr body : List Byte) : Prop where
  length_hdr : hdr.length = s.hdr
  length_body : body.length = s.symSize
  parses : parseVector s.params s.field s.format s.k hdr = some v
  carries : ∀ b < s.symSize, body.getD b 0#8 = combination s.params s.field s.symSize v s.blk b

theorem ActiveOk.field_code {s : State} (h : ActiveOk s) : s.field.code = (cfgField s.acfg0).setWidth 8 := by
  have hcodes : ∀ f : BitVec 2, f.toNat ≤ 2 → (Field.ofCode f).code = f.setWidth 8 := by decide
  exact hcodes _ h.field

theorem ActiveOk.format_cases {s : State} (h : ActiveOk s) : s.format = 0#2 ∨ s.format = 1#2 := by
  have hcodes : ∀ f : BitVec 2, f.toNat ≤ 1 → f = 0#2 ∨ f = 1#2 := by decide
  exact hcodes _ h.format

theorem ActiveOk.density_toNat {s : State} (h : ActiveOk s) : (s.density.setWidth 16).toNat = s.dens := by
  have hdens := h.dens_le
  rw [BitVec.toNat_setWidth]
  exact Nat.mod_eq_of_lt (a := s.dens) (by omega)

/-- The index byte of a systematic header holds CURSOR (R256). -/
theorem Inv.cursor_index {s : State} (h : Inv s) (hc : s.configured = true) (hd : s.isDecoder = false)
    (hcoded : s.coded = false) : (BitVec.ofNat 8 s.cursor.toNat).toNat = s.cursor.toNat :=
  Nat.mod_eq_of_lt (((h.encoderOk hc hd).cursor_lt hcoded).trans_le ((h.activeOk hc).k_le.trans h.kMax_le))

theorem payload_systematic {s : State} (h : Inv s) (hc : s.configured = true) (hd : s.isDecoder = false)
    (hcoded : s.coded = false) :
    Payload s (unitVec s.k s.cursor.toNat) (sysHeader s.field s.cursor.toNat s.hdr)
      (symData s.blk s.symSize s.cursor.toNat) where
  length_hdr := length_sysHeader _ _ (h.activeOk hc).three_le_hdr
  length_body := length_symData ..
  parses := by
    have hindex : ((sysHeader s.field s.cursor.toNat s.hdr).getD 2 0#8).toNat = s.cursor.toNat :=
      h.cursor_index hc hd hcoded
    rw [parseVector_systematic rfl rfl (hindex.trans_lt ((h.encoderOk hc hd).cursor_lt hcoded)), hindex]
  carries b hb := by
    rw [combination_unitVec h.legal s.field s.symSize ((h.encoderOk hc hd).cursor_lt hcoded)]
    exact Memory.getD_readRun _ _ _ _ hb _

theorem payload_dense {s : State} (ha : ActiveOk s) (hfmt : s.format = 0#2) {v : List Byte} (hv : IsOver s.field v)
    (hlen : v.length = s.k) :
    Payload s v (denseHeader s.field v s.hdr) (codedBody s.params s.field s.symSize v s.blk) where
  length_hdr := length_denseHeader _ _ (by have := ha.three_le_hdr; omega)
  length_body := length_codedBody ..
  parses := by
    rw [ha.hdr_eq, hfmt, parseVector_dense rfl rfl, unpackDense_denseHeader hv hlen]
  carries _ hb := getD_codedBody _ _ _ _ hb

theorem payload_sparse {s : State} (ha : ActiveOk s) (hfmt : s.format = 1#2) (seed : Word) :
    Payload s (expand s.params seed s.dens s.k s.field) (sparseHeader s.field seed (s.density.setWidth 16))
      (codedBody s.params s.field s.symSize (expand s.params seed s.dens s.k s.field) s.blk) where
  length_hdr := by rw [ha.hdr_eq, hfmt]; rfl
  length_body := length_codedBody ..
  parses := by
    have hdens : (headerDensity (sparseHeader s.field seed (s.density.setWidth 16))).toNat = s.dens := by
      rw [headerDensity_sparseHeader, ha.density_toNat]
    rw [hfmt, parseVector_sparse rfl rfl (hdens ▸ decide_eq_true ha.dens_le), hdens, headerSeed_sparseHeader]
  carries _ hb := getD_codedBody _ _ _ _ hb

theorem isOver_dense (F : Field) (rs : List Word) : IsOver F (dense F rs) := by
  have hq := F.two_le_size
  refine isOver_of_forall_mem fun x hx => ?_
  obtain ⟨r, _, rfl⟩ := List.mem_map.1 hx
  exact holds_ofNat (Nat.mod_lt _ (by omega))

/-- The payload of the first k draws (R202, R262). -/
theorem payload_draws {s : State} (ha : ActiveOk s) (hfmt : s.format = 0#2) (hdraws : s.k ≤ s.draws.length) :
    Payload s (dense s.field (s.draws.take s.k)) (denseHeader s.field (dense s.field (s.draws.take s.k)) s.hdr)
      (codedBody s.params s.field s.symSize (dense s.field (s.draws.take s.k)) s.blk) :=
  payload_dense ha hfmt (isOver_dense s.field _) (length_dense_take s.field hdraws)

section

variable {s : State} {v hdr body : List Byte} (h : Payload s v hdr body)

include h

theorem Payload.length_vec : v.length = s.k := length_parseVector h.parses

theorem Payload.isVector : isVector s v := by
  refine ⟨h.length_vec, fun x hx => ?_⟩
  obtain ⟨i, hi, rfl⟩ := List.mem_iff_getElem.1 hx
  exact List.getD_eq_getElem v 0#8 hi ▸ isOver_parseVector h.parses i

end

/-! ### PBUF and CVEC after a payload is framed (R200, R258) -/

/-- `t` has the configuration of `s`, the payload framed in PBUF and its vector in CVEC. -/
structure Framed (s t : State) (v hdr body : List Byte) : Prop where
  payload : Payload s v hdr body
  cvec : t.cvec = s.cvec.writeRun 0 v
  pbuf : t.pbuf = framePayload hdr body s.pbuf
  params : t.params = s.params
  field : t.field = s.field
  format : t.format = s.format
  k : t.k = s.k
  symSize : t.symSize = s.symSize
  hdr : t.hdr = s.hdr

theorem Payload.framed {s : State} {v hdr body : List Byte} (h : Payload s v hdr body) :
    Framed s (emit v hdr body s) v hdr body :=
  ⟨h, rfl, rfl, rfl, rfl, rfl, rfl, rfl, rfl⟩

theorem Memory.readRun_writeRun_prefix (m : Memory) (x : Nat) (bs cs : List Byte) :
    (m.writeRun x (bs ++ cs)).readRun x bs.length = bs := by
  refine List.ext_getElem (by simp) fun j _ hj => ?_
  simp [Memory.readRun, Memory.read_writeRun, List.getD, hj, Nat.lt_add_right cs.length hj]

section

variable {s t : State} {v hdr body : List Byte} (h : Framed s t v hdr body)

include h

theorem Framed.read_cvec {i : Nat} (hi : i < s.k) : t.cvec.read i = v.getD i 0#8 := by
  rw [h.cvec]
  exact read_writeCvec_inside (h.payload.length_vec.symm ▸ hi) s

theorem Framed.read_cvec_outside {i : Nat} (hi : s.k ≤ i) : t.cvec.read i = s.cvec.read i := by
  rw [h.cvec]
  exact read_writeCvec_outside (h.payload.length_vec.symm ▸ hi) s

theorem Framed.header : t.pbuf.readRun 0 s.hdr = hdr := by
  rw [h.pbuf, ← h.payload.length_hdr]
  exact Memory.readRun_writeRun_prefix s.pbuf 0 hdr body

theorem Framed.parsed : t.parsed = some v := by
  rw [State.parsed, State.header, h.params, h.field, h.format, h.k, h.hdr, h.header]
  exact h.payload.parses

theorem Framed.read_header {a : Nat} (ha : a < s.hdr) : t.pbuf.read a = hdr.getD a 0#8 := by
  rw [← h.header, Memory.getD_readRun _ _ _ _ ha, Nat.zero_add]

theorem Framed.read_body {b : Nat} (hb : b < s.symSize) : t.pbuf.read (s.hdr + b) = body.getD b 0#8 := by
  have hhdr := h.payload.length_hdr
  have hbody := h.payload.length_body
  rw [h.pbuf, framePayload, Memory.read_writeRun, if_pos (by rw [List.length_append]; omega),
    List.getD_append_right _ _ _ _ (by omega), hhdr, Nat.sub_zero, Nat.add_sub_cancel_left]

theorem Framed.read_pbuf_outside {a : Nat} (ha : s.hdr + s.symSize ≤ a) : t.pbuf.read a = s.pbuf.read a := by
  have hhdr := h.payload.length_hdr
  have hbody := h.payload.length_body
  rw [h.pbuf, framePayload, Memory.read_writeRun, if_neg (by rw [List.length_append]; omega)]

theorem Framed.payloadTrueOf : payloadTrueOf s.blk v t := fun b hb => by
  rw [h.symSize] at hb
  rw [h.params, h.field, h.symSize, h.hdr]
  exact (h.read_body hb).trans (h.payload.carries b hb)

/-- R202: each byte of the body is the sum of the symbols' bytes times the entries of CVEC. -/
theorem Framed.read_body_sum {b : Nat} (hb : b < s.symSize) :
    t.pbuf.read (s.hdr + b) =
      xorSum s.k fun i => mulb s.params s.field (t.cvec.read i) (s.blk.read (symAt s.symSize i + b)) := by
  rw [h.read_body hb, h.payload.carries b hb, combination, h.payload.length_vec]
  exact xorSum_congr fun i hi => by rw [h.read_cvec hi]

end

/-- R254, R262: the elements of the bytes of a dense header are the entries of CVEC, and 0 from entry k on. -/
theorem Framed.read_packed {s t : State} {v body : List Byte} (h : Framed s t v (denseHeader s.field v s.hdr) body) {i : Nat}
    (hi : 2 + i / perByte s.field < s.hdr) :
    (t.pbuf.read (2 + i / perByte s.field)).toNat / 2 ^ (s.field.bits * (i % perByte s.field)) % s.field.size
      = if i < s.k then (t.cvec.read i).toNat else 0 := by
  rw [h.read_header hi, ← Field.toNat_element, element_denseHeader (isOver_parseVector h.payload.parses) hi]
  split
  · next hlt => rw [h.read_cvec hlt]
  · next hge => rw [List.getD_eq_default _ _ (h.payload.length_vec.trans_le (Nat.not_lt.1 hge)), BitVec.toNat_zero]

/-! ### ENC.WRITE and ENC.SETDENS (R200, R205) -/

theorem encWrite_systematic {s : State} (h : Inv s) (hc : s.configured = true) (hd : s.isDecoder = false)
    (hcoded : s.coded = false) :
    ∃ t, exec .encWrite s = .next t
      ∧ t = { s with
          err := .none, done := true, pending := none, cvec := t.cvec, pbuf := t.pbuf, plen := s.psize,
          cursor := s.cursor + 1#32, coded := decide (s.cursor.toNat + 1 = s.k) }
      ∧ Framed s t (unitVec s.k s.cursor.toNat) (sysHeader s.field s.cursor.toNat s.hdr)
          (symData s.blk s.symSize s.cursor.toNat) := by
  have hcoded' : (s.coded || decide (s.cursor.toNat + 1 = s.k)) = decide (s.cursor.toNat + 1 = s.k) := by
    rw [hcoded, Bool.false_or]
  refine ⟨complete .none (writeSystematic s), (withRole_of_role hc hd).trans (if_pos hcoded), ?_,
    { (payload_systematic h hc hd hcoded).framed with }⟩
  rw [← hcoded']
  rfl

theorem encWrite_dense {s : State} (h : Inv s) (hc : s.configured = true) (hd : s.isDecoder = false)
    (hcoded : s.coded = true) (hfmt : s.format = 0#2) (hdraws : s.k ≤ s.draws.length) :
    ∃ t, exec .encWrite s = .next t
      ∧ t = { s with
          err := .none, done := true, pending := none, cvec := t.cvec, pbuf := t.pbuf, plen := s.psize,
          draws := s.draws.drop s.k }
      ∧ Framed s t (dense s.field (s.draws.take s.k)) (denseHeader s.field (dense s.field (s.draws.take s.k)) s.hdr)
          (codedBody s.params s.field s.symSize (dense s.field (s.draws.take s.k)) s.blk) :=
  ⟨_, (withRole_of_role hc hd).trans <| (if_neg (by simp [hcoded])).trans <|
      (if_pos hfmt).trans (withDraws_of_offered hdraws),
    rfl, { (payload_draws (h.activeOk hc) hfmt hdraws).framed with }⟩

theorem encWrite_sparse {s : State} {seed : Word} {rest : List Word} (h : Inv s) (hc : s.configured = true)
    (hd : s.isDecoder = false) (hcoded : s.coded = true) (hfmt : s.format = 1#2) (hdraws : s.draws = seed :: rest) :
    ∃ t, exec .encWrite s = .next t
      ∧ t = { s with
          err := .none, done := true, pending := none, cvec := t.cvec, pbuf := t.pbuf, plen := s.psize,
          draws := rest, seedLast := seed }
      ∧ Framed s t (expand s.params seed s.dens s.k s.field) (sparseHeader s.field seed (s.density.setWidth 16))
          (codedBody s.params s.field s.symSize (expand s.params seed s.dens s.k s.field) s.blk) := by
  have hoffered : 1 ≤ s.draws.length := by simp [hdraws]
  refine ⟨complete .none (writeSparse seed { s with draws := rest }), (withRole_of_role hc hd).trans ?_, rfl,
    { (payload_sparse (h.activeOk hc) hfmt seed).framed with }⟩
  rw [if_neg (by simp [hcoded]), if_neg (by simp [hfmt]), withDraws_of_offered hoffered, hdraws]
  exact finish_eq _

/-- Settles O37: the payload of symbol CURSOR, byte by byte. -/
theorem encWriteSystematicEmitsSymbol : Obligations.EncWriteSystematicEmitsSymbol := by
  intro s h hc hd hcoded
  have ha := h.activeOk hc
  have hhdr := ha.three_le_hdr
  obtain ⟨t, ht, hframe, hf⟩ := encWrite_systematic h hc hd hcoded
  refine ⟨t, ht, hframe, fun i hi => (hf.read_cvec hi).trans (getD_unitVec _ _ _ hi),
    fun i hi => hf.read_cvec_outside hi, hf.read_header (by omega), (hf.read_header (by omega)).trans ha.field_code, ?_,
    fun a h3 hlt => (hf.read_header hlt).trans (getD_sysHeader_pad _ _ h3),
    fun b hb => (hf.read_body hb).trans (Memory.getD_readRun _ _ _ _ hb _),
    fun a hle => hf.read_pbuf_outside (ha.psize_eq ▸ hle)⟩
  rw [hf.read_header hhdr]
  exact h.cursor_index hc hd hcoded

/-- Settles O38: the payload of the first k draws; the elements of its header's bytes are the vector and a zero pad. -/
theorem encWriteDenseEmitsCombination : Obligations.EncWriteDenseEmitsCombination := by
  intro s h hc hd hcoded hfmt hdraws
  have ha := h.activeOk hc
  have hhdr := ha.three_le_hdr
  obtain ⟨t, ht, hframe, hf⟩ := encWrite_dense h hc hd hcoded hfmt hdraws
  refine ⟨t, ht, hframe, fun i hi => ?_, fun i hi => hf.read_cvec_outside hi, hf.read_header (by omega),
    (hf.read_header (by omega)).trans ha.field_code, fun i hi => hf.read_packed hi, fun b hb => hf.read_body_sum hb,
    fun a hle => hf.read_pbuf_outside (ha.psize_eq ▸ hle)⟩
  rw [hf.read_cvec hi, getD_dense_take s.field hdraws hi, toNat_denseEntry]

/-- Settles O39: the payload of the drawn seed and the density, byte by byte. -/
theorem encWriteSparseEmitsCombination : Obligations.EncWriteSparseEmitsCombination := by
  intro s seed rest h hc hd hcoded hfmt hdraws
  have ha := h.activeOk hc
  obtain ⟨t, ht, hframe, hf⟩ := encWrite_sparse h hc hd hcoded hfmt hdraws
  have hhdr : s.hdr = 8 := hf.payload.length_hdr.symm
  have hdens : ∀ n, n + 8 ≤ 16 → (s.density.setWidth 16).extractLsb' n 8 = s.density.extractLsb' n 8 := fun n hn =>
    BitVec.extractLsb'_setWidth_of_le hn
  exact ⟨t, ht, hframe, fun i hi => hf.read_cvec hi, fun i hi => hf.read_cvec_outside hi, hf.read_header (by omega),
    (hf.read_header (by omega)).trans ha.field_code, hf.read_header (by omega), hf.read_header (by omega),
    hf.read_header (by omega), hf.read_header (by omega), (hf.read_header (by omega)).trans (hdens 8 (by decide)),
    (hf.read_header (by omega)).trans (hdens 0 (by decide)), fun b hb => hf.read_body_sum hb,
    fun a hle => hf.read_pbuf_outside (ha.psize_eq ▸ hle)⟩

/-- In each of its three states ENC.WRITE, its draws offered, frames a payload, and PLEN is PSIZE (R200). -/
theorem encWrite_frames {s : State} (h : Inv s) (hc : s.configured = true) (hd : s.isDecoder = false)
    (hdraws : drawsTaken s .encWrite ≤ s.draws.length) :
    ∃ t v hdr body, exec .encWrite s = .next t ∧ Framed s t v hdr body ∧ t.plen = t.psize := by
  cases hcoded : s.coded with
  | false =>
    obtain ⟨t, ht, hframe, hf⟩ := encWrite_systematic h hc hd hcoded
    exact ⟨t, _, _, _, ht, hf, by rw [hframe]⟩
  | true =>
    obtain hfmt | hfmt := (h.activeOk hc).format_cases
    · obtain ⟨t, ht, hframe, hf⟩ := encWrite_dense h hc hd hcoded hfmt (by simpa [drawsTaken, hcoded, hfmt] using hdraws)
      exact ⟨t, _, _, _, ht, hf, by rw [hframe]⟩
    · have hone : 1 ≤ s.draws.length := by simpa [drawsTaken, hcoded, hfmt] using hdraws
      obtain ⟨seed, rest, hoffer⟩ := List.exists_cons_of_length_pos hone
      obtain ⟨t, ht, hframe, hf⟩ := encWrite_sparse h hc hd hcoded hfmt hoffer
      exact ⟨t, _, _, _, ht, hf, by rw [hframe]⟩

/-- Settles O40: the framed header parses to the framed vector, and the framed body is the block's combination with it. -/
theorem encodedPayloadParsesBackAndIsTrue : Obligations.EncodedPayloadParsesBackAndIsTrue := by
  intro s h hc hd hdraws
  obtain ⟨t, v, hdr, body, ht, hf, hplen⟩ := encWrite_frames h hc hd hdraws
  exact ⟨t, v, ht, hf.parsed, hf.payload.isVector, fun i hi => hf.read_cvec hi, hf.payloadTrueOf, hplen⟩

theorem exec_encSetdens {s : State} (hc : s.configured = true) (hd : s.isDecoder = false) (imm : BitVec 16) :
    exec (.encSetdens imm) s =
      if densityOk imm.toNat = true then finish { s with density := imm.setWidth 32 } else raise .config s :=
  withRole_of_role hc hd

/-- Settles O41: the density check has two outcomes. -/
theorem encSetdensResult : Obligations.EncSetdensResult := fun imm s hc hd =>
  ⟨fun hle => (exec_encSetdens hc hd imm).trans (if_pos (decide_eq_true hle)),
    fun hgt => (exec_encSetdens hc hd imm).trans (if_neg (by simpa [densityOk] using hgt))⟩

end Sys2Proof.Machine

namespace Sys2Proof.Machine

open Sys2Proof

/-! ## What lies outside the active configuration (spec/20_memory R92, spec/44_decoder R237)

### The bytes and entries outside -/

/-- `t` holds what `s` holds in PBUF from PSIZE on, in BLK from k*S on, in CVEC from k on and in ROWS outside the first k rows and
columns. -/
structure RangeFrame (s t : State) : Prop where
  pbuf : ∀ a, s.psize.toNat ≤ a → t.pbuf.read a = s.pbuf.read a
  blk : ∀ a, s.k * s.symSize ≤ a → t.blk.read a = s.blk.read a
  cvec : ∀ c, s.k ≤ c → t.cvec.read c = s.cvec.read c
  rows : ∀ off, s.k ≤ off / 256 ∨ s.k ≤ off % 256 → t.rows.read off = s.rows.read off

theorem rangeFrame_refl (s : State) : RangeFrame s s := by constructor <;> intros <;> rfl

theorem RangeFrame.complete {s t : State} (h : RangeFrame s t) (e : ErrCode) : RangeFrame s (complete e t) where
  __ := h

theorem rangeFrame_complete (e : ErrCode) (s : State) : RangeFrame s (complete e s) := (rangeFrame_refl s).complete e

theorem rangeFrame_setResult (r : Byte) (s : State) : RangeFrame s (setResult r s) where
  __ := rangeFrame_refl s

theorem rangeFrame_writeCvec {s : State} {v : List Byte} (hv : v.length = s.k) : RangeFrame s (writeCvec v s) where
  __ := rangeFrame_refl s
  cvec _ hc := read_writeCvec_outside (hv.trans_le hc) s

theorem rangeFrame_emit {s : State} (ha : ActiveOk s) {v hdr body : List Byte} (h : Payload s v hdr body) :
    RangeFrame s (emit v hdr body s) where
  __ := rangeFrame_refl s
  pbuf _ hle := h.framed.read_pbuf_outside (ha.psize_eq ▸ hle)
  cvec _ hc := h.framed.read_cvec_outside hc

/-! ### GF.AXPY and the rows of DEC.READ (R158, R237) -/

theorem symAt_add_le {S k r : Nat} (hr : r < k) : symAt S r + S ≤ k * S := by
  rw [symAt, ← Nat.succ_mul]
  exact Nat.mul_le_mul_right S hr

theorem rangeFrame_axpy {s : State} (coeff : Byte) {dst : Nat} (src : Nat) (hdst : dst < s.k) :
    RangeFrame s { s with blk := axpy s.params s.field s.symSize coeff dst src s.blk } where
  __ := rangeFrame_refl s
  blk a hle := by
    have hsym := symAt_add_le (S := s.symSize) hdst
    rw [read_axpy, axpyTerm_outside (by omega), BitVec.xor_zero]

/-- `m` holds what `s` holds in BLK from k*S on and in ROWS outside the first k rows and columns. -/
structure HeldFrame (s : State) (m : Held) : Prop where
  blk : ∀ a, s.k * s.symSize ≤ a → m.blk.read a = s.blk.read a
  rows : ∀ off, s.k ≤ off / 256 ∨ s.k ≤ off % 256 → m.rows.read off = s.rows.read off

section

variable {s : State} (hk : s.k ≤ 256) {m : Held} (hm : HeldFrame s m)

include hk hm

/-- A row of k entries and S bytes written at a row index below k stays inside the first k rows, columns and symbols. -/
theorem heldFrame_writeRow {r : Nat} (hr : r < s.k) {v d : List Byte} (hv : v.length = s.k) (hd : d.length = s.symSize) :
    HeldFrame s ⟨m.rows.writeRun (rowAt r) v, m.blk.writeRun (symAt s.symSize r) d⟩ where
  blk a hle := by
    have hsym := symAt_add_le (S := s.symSize) hr
    rw [Memory.read_writeRun, if_neg (by omega), hm.blk a hle]
  rows off hout := by
    rw [Memory.read_writeRun, if_neg (by unfold rowAt; omega), hm.rows off hout]

theorem heldFrame_backSubst (pcol : Nat) {x : Scratch} (hv : x.v.length = s.k) (hd : x.d.length = s.symSize) :
    HeldFrame s (backSubst s.params s.field s.k s.symSize s.piv pcol x m) := by
  refine List.foldlRecOn (motive := HeldFrame s) _ _ hm fun m hm r hr => ?_
  unfold backSubstRow
  split
  · exact heldFrame_writeRow hk hm (List.mem_range.1 hr) (by simp [hv]) (by simp [hd])
  · exact hm

end

theorem rangeFrame_readInnovative {s : State} (hk : s.k ≤ 256) {v : List Byte} {pcol : Nat} {x : Scratch}
    (hv : v.length = s.k) (hpcol : pcol < s.k) (hxv : x.v.length = s.k) (hxd : x.d.length = s.symSize) :
    RangeFrame s (readInnovative v pcol x s) :=
  have hstart : HeldFrame s ⟨s.rows, s.blk⟩ := ⟨fun _ _ => rfl, fun _ _ => rfl⟩
  have hheld := heldFrame_writeRow hk (heldFrame_backSubst hk hstart pcol hxv hxd) hpcol hxv hxd
  { rangeFrame_writeCvec hv with blk := hheld.blk, rows := hheld.rows }

theorem rangeFrame_readParsed {s : State} (hk : s.k ≤ 256) {v : List Byte} (hv : v.length = s.k) :
    RangeFrame s (readParsed v s) := by
  obtain ⟨hxv, hxd⟩ := length_reducedRow hv
  unfold readParsed
  split
  · next hne =>
    exact rangeFrame_readInnovative hk hv (hxv ▸ leading_lt hne) (by simp [normalize, hxv]) (by simp [normalize, hxd])
  · exact { rangeFrame_writeCvec hv with }

/-! ### Every command but INIT -/

theorem execGfAdd_rangeFrame (fld : BitVec 2) (a b : Byte) (s : State) : Yields (RangeFrame s) (execGfAdd fld a b s) :=
  yields_withRange (fun _ => rangeFrame_complete _ s) fun _ => yields_finish.2 ((rangeFrame_setResult _ s).complete _)

theorem execGfMul_rangeFrame (fld : BitVec 2) (a b : Byte) (s : State) : Yields (RangeFrame s) (execGfMul fld a b s) :=
  yields_withRange (fun _ => rangeFrame_complete _ s) fun _ => yields_finish.2 ((rangeFrame_setResult _ s).complete _)

theorem execGfInv_rangeFrame (fld : BitVec 2) (a : Byte) (s : State) : Yields (RangeFrame s) (execGfInv fld a s) := by
  refine yields_withRange (fun _ => rangeFrame_complete _ s) fun _ => ?_
  split
  · exact yields_raise.2 (rangeFrame_complete _ s)
  · exact yields_finish.2 ((rangeFrame_setResult _ s).complete _)

theorem execGfAxpy_rangeFrame (coeff dst src : Byte) (s : State) : Yields (RangeFrame s) (execGfAxpy coeff dst src s) := by
  refine yields_withInstance (fun _ => rangeFrame_complete _ s) fun _ => ?_
  refine yields_withRange (fun _ => rangeFrame_complete _ s) fun hok => yields_finish.2 (RangeFrame.complete ?_ _)
  simp only [Bool.and_eq_true, decide_eq_true_eq] at hok
  obtain ⟨⟨_, hdst⟩, _⟩ := hok
  exact rangeFrame_axpy coeff src.toNat hdst

theorem execGenDense_rangeFrame (s : State) : Yields (RangeFrame s) (execGenDense s) := by
  refine yields_withInstance (fun _ => rangeFrame_complete _ s) fun _ => ?_
  refine yields_withDraws (fun _ => rangeFrame_refl s) fun hdraws => yields_finish.2 ?_
  exact { rangeFrame_writeCvec (length_dense_take s.field hdraws) with }

theorem execGenSparse_rangeFrame (s : State) : Yields (RangeFrame s) (execGenSparse s) :=
  yields_withInstance (fun _ => rangeFrame_complete _ s) fun _ =>
    yields_finish.2 ((rangeFrame_writeCvec (length_expand ..)).complete _)

theorem execEncWrite_rangeFrame {s : State} (h : Inv s) : Yields (RangeFrame s) (execEncWrite s) := by
  refine yields_withRole (rangeFrame_complete _ s) fun hc hd => ?_
  have ha := h.activeOk hc
  split
  · next hcoded => exact yields_finish.2 { rangeFrame_emit ha (payload_systematic h hc hd hcoded) with }
  split
  · next hfmt =>
    refine yields_withDraws (fun _ => rangeFrame_refl s) fun hdraws => yields_finish.2 ?_
    exact { rangeFrame_emit ha (payload_draws ha hfmt hdraws) with }
  · next hfmt =>
    refine yields_withDraws (fun _ => rangeFrame_refl s) fun _ => yields_finish.2 ?_
    exact { rangeFrame_emit ha (payload_sparse ha (ha.format_cases.resolve_left hfmt) ((s.draws.take 1).getD 0 0#32)) with }

theorem execEncSetdens_rangeFrame (imm : BitVec 16) (s : State) : Yields (RangeFrame s) (execEncSetdens imm s) := by
  refine yields_withRole (rangeFrame_complete _ s) fun _ _ => ?_
  split
  · exact yields_finish.2 { rangeFrame_refl s with }
  · exact yields_raise.2 (rangeFrame_complete _ s)

theorem execDecRead_rangeFrame {s : State} (h : Inv s) : Yields (RangeFrame s) (execDecRead s) := by
  refine yields_withRole (rangeFrame_complete _ s) fun hc _ => ?_
  have hk : s.k ≤ 256 := (h.activeOk hc).k_le.trans h.kMax_le
  split
  · exact yields_finish.2 { rangeFrame_refl s with }
  split
  · exact yields_raise.2 (rangeFrame_complete _ s)
  split
  · exact yields_raise.2 (rangeFrame_complete _ s)
  · next v hparsed => exact yields_finish.2 ((rangeFrame_readParsed hk (length_parseVector hparsed)).complete _)

theorem exec_rangeFrame {i : Instr} (hinit : i ≠ .init) {s : State} (h : Inv s) : Yields (RangeFrame s) (exec i s) := by
  cases i with
  | nop => exact yields_finish.2 (rangeFrame_complete _ s)
  | init => exact absurd rfl hinit
  | gfAdd fld a b => exact execGfAdd_rangeFrame fld a b s
  | gfMul fld a b => exact execGfMul_rangeFrame fld a b s
  | gfInv fld a => exact execGfInv_rangeFrame fld a s
  | gfAxpy coeff dst src => exact execGfAxpy_rangeFrame coeff dst src s
  | genDense => exact execGenDense_rangeFrame s
  | genSparse => exact execGenSparse_rangeFrame s
  | encWrite => exact execEncWrite_rangeFrame h
  | encSetdens imm => exact execEncSetdens_rangeFrame imm s
  | decRead => exact execDecRead_rangeFrame h

/-- INIT leaves PBUF, BLK and ROWS in both outcomes (R131, R135). -/
theorem execInit_memories (s : State) :
    Yields (fun t => t.pbuf = s.pbuf ∧ t.blk = s.blk ∧ t.rows = s.rows) (execInit s) := by
  unfold execInit
  split
  · exact yields_finish.2 ⟨rfl, rfl, rfl⟩
  · exact yields_raise.2 ⟨rfl, rfl, rfl⟩

/-- Settles O19: INIT leaves the three memories whole, and every other command writes inside the active configuration. -/
theorem commandsStayInTheirRanges : Obligations.CommandsStayInTheirRanges := by
  intro i s t h hexec
  by_cases hinit : i = .init
  · subst hinit
    obtain ⟨hpbuf, hblk, hrows⟩ := execInit_memories s t hexec
    exact ⟨fun a _ => by rw [hpbuf], fun a _ => by rw [hblk], fun hne => absurd rfl hne, fun off _ => by rw [hrows]⟩
  · obtain ⟨hpbuf, hblk, hcvec, hrows⟩ := exec_rangeFrame hinit h t hexec
    exact ⟨hpbuf, hblk, fun _ => hcvec, hrows⟩

end Sys2Proof.Machine

namespace Sys2Proof.Machine

open Sys2Proof

/-! ## The decoder (spec/44_decoder R220-R237)

### The outcomes of DEC.READ (R220, R221, R232) -/

section

variable {s : State} (hc : s.configured = true) (hd : s.isDecoder = true)

include hc hd

theorem exec_decRead_of_complete (hrank : s.rank = s.asymbols) :
    exec .decRead s = .next (complete .none (readIgnored s)) :=
  (withRole_of_role hc hd).trans (if_pos hrank)

variable (hrank : s.rank ≠ s.asymbols)

include hrank

theorem exec_decRead_of_rejected (hbad : s.plen ≠ s.psize ∨ s.parsed = none) :
    exec .decRead s = .next (complete .framing s) := by
  refine (withRole_of_role hc hd).trans ((if_neg hrank).trans ?_)
  split
  · rfl
  · next hplen => rw [hbad.resolve_left hplen]; rfl

theorem exec_decRead_of_parsed (hplen : s.plen = s.psize) {v : List Byte} (hparsed : s.parsed = some v) :
    exec .decRead s = .next (complete .none (readParsed v s)) := by
  refine (withRole_of_role hc hd).trans ((if_neg hrank).trans ((if_neg (not_not.2 hplen)).trans ?_))
  rw [hparsed]
  rfl

end

/-- Everything DEC.READ can do: an error, an ignored read, or a read of a parsed payload. -/
theorem yields_execDecRead {P : State → Prop} {s : State} (herr : ∀ e, P (complete e s))
    (hignored : P (complete .none (readIgnored s)))
    (hread : s.configured = true → s.isDecoder = true → s.rank ≠ s.asymbols → ∀ v, s.parsed = some v →
      P (complete .none (readParsed v s))) :
    Yields P (execDecRead s) := by
  refine yields_withRole (herr _) fun hc hd => ?_
  split
  · exact yields_finish.2 hignored
  next hrank =>
  split
  · exact yields_raise.2 (herr _)
  split
  · exact yields_raise.2 (herr _)
  · next v hparsed => exact yields_finish.2 (hread hc hd hrank v hparsed)

/-- Settles O42: the test for a complete decoder comes before every check of the payload. -/
theorem completeDecoderIgnoresReads : Obligations.CompleteDecoderIgnoresReads := fun _ hc hd hrank =>
  exec_decRead_of_complete hc hd hrank

/-! ### Malformed payloads (R221-R223) -/

theorem densityOk_iff {d : Nat} : densityOk d = true ↔ d ≤ 0x8000 := decide_eq_true_iff

theorem toNat_headerDensity (h : List Byte) :
    (headerDensity h).toNat = 256 * (h.getD 6 0#8).toNat + (h.getD 7 0#8).toNat := by
  have hlt := (h.getD 7 0#8).isLt
  rw [headerDensity, BitVec.toNat_append, ← Nat.shiftLeft_add_eq_or_of_lt hlt, Nat.shiftLeft_eq]
  omega

/-- The headers that parse_vector rejects: a wrong field, a tag that is not systematic and not that of the format, an index not
below k, and a density that is not one (R259). -/
theorem parseVector_eq_none_iff {p : Params} {F : Field} {fmt : BitVec 2} {k : Nat} {h : List Byte}
    (hfmt : fmt = 0#2 ∨ fmt = 1#2) :
    parseVector p F fmt k h = none ↔
      h.getD 1 0#8 ≠ F.code
        ∨ (h.getD 0 0#8 ≠ tagSystematic ∧ h.getD 0 0#8 ≠ if fmt = 0#2 then tagDense else tagSparse)
        ∨ (h.getD 0 0#8 = tagSystematic ∧ k ≤ (h.getD 2 0#8).toNat)
        ∨ (h.getD 0 0#8 = tagSparse ∧ 0x8000 < (headerDensity h).toNat) := by
  have htags : tagDense ≠ tagSystematic ∧ tagSparse ≠ tagSystematic ∧ tagSparse ≠ tagDense := by decide
  obtain ⟨hds, hss, hsd⟩ := htags
  have hdens : densityOk (headerDensity h).toNat = true ↔ ¬0x8000 < (headerDensity h).toNat :=
    densityOk_iff.trans Nat.not_lt.symm
  unfold parseVector
  generalize h.getD 0 0#8 = tag
  by_cases hF : h.getD 1 0#8 = F.code
  swap
  · rw [if_pos hF]
    exact iff_of_true rfl (.inl hF)
  rw [if_neg (not_not.2 hF)]
  by_cases hsys : tag = tagSystematic
  · subst hsys
    simp [hF, hss.symm, -List.getD_eq_getElem?_getD]
  by_cases hdense : tag = tagDense
  · obtain rfl | rfl := hfmt <;> simp [hF, hdense, hds, hsd.symm, -List.getD_eq_getElem?_getD]
  by_cases hsparse : tag = tagSparse
  · obtain rfl | rfl := hfmt <;> simp [hF, hsparse, hss, hsd, hdens, -List.getD_eq_getElem?_getD]
  · obtain rfl | rfl := hfmt <;> simp [hF, hsys, hdense, hsparse, -List.getD_eq_getElem?_getD]

theorem State.read_header {s : State} {a : Nat} (ha : a < s.hdr) : s.header.getD a 0#8 = s.pbuf.read a := by
  rw [header, Memory.getD_readRun _ _ _ _ ha, Nat.zero_add]

theorem ActiveOk.hdr_of_sparse {s : State} (h : ActiveOk s) (hfmt : s.format = 1#2) : s.hdr = 8 := by
  rw [h.hdr_eq, hfmt]
  rfl

/-- The statement's list of malformed payloads is what the length check and the parser refuse. In the dense format the header may
be too short for a density, but there the sparse tag is wrong already. -/
theorem malformed_iff {s : State} (ha : ActiveOk s) : malformed s ↔ s.plen ≠ s.psize ∨ s.parsed = none := by
  have h3 := ha.three_le_hdr
  rw [malformed, State.parsed, parseVector_eq_none_iff ha.format_cases, ha.field_code, toNat_headerDensity,
    State.read_header (by omega), State.read_header (by omega), State.read_header (by omega)]
  refine or_congr_right (or_congr_right ?_)
  obtain hfmt | hfmt := ha.format_cases
  · by_cases htag : s.pbuf.read 0 = tagSparse
    · have hwrong : s.pbuf.read 0 ≠ 0x00#8 ∧ s.pbuf.read 0 ≠ if s.format = 0#2 then 0x01#8 else 0x02#8 := by
        rw [htag, hfmt]
        decide
      exact iff_of_true (.inl hwrong) (.inl hwrong)
    · exact or_congr_right (or_congr_right (iff_of_false (fun h => htag h.1) fun h => htag h.1))
  · have h8 := ha.hdr_of_sparse hfmt
    rw [State.read_header (by omega), State.read_header (by omega), if_neg (by rw [hfmt]; decide), if_neg (by rw [hfmt]; decide)]
    rfl

/-- Settles O43: the malformed payloads are those of the wrong length and those whose header does not parse. -/
theorem malformedPayloadsFailWithFraming : Obligations.MalformedPayloadsFailWithFraming := by
  intro s hi hc hd hrank
  rw [malformed_iff (hi.activeOk hc)]
  refine ⟨exec_decRead_of_rejected hc hd hrank, fun hgood => ?_⟩
  obtain ⟨hplen, hparsed⟩ := not_or.1 hgood
  obtain ⟨v, hv⟩ := Option.ne_none_iff_exists'.1 hparsed
  exact ⟨_, v, hv, exec_decRead_of_parsed hc hd hrank (not_not.1 hplen) hv, rfl⟩

end Sys2Proof.Machine

namespace Sys2Proof.Machine

open Sys2Proof

/-! ## What DEC.READ does with a parsed payload (spec/44_decoder R224-R231, R237)

### The column that the reduced vector leads with (R227) -/

/-- The vector v, reduced by the held rows, has its first nonzero entry at p. -/
structure Leads (s : State) (v : List Byte) (p : Nat) : Prop where
  lt : p < s.k
  before : ∀ c < p, residueVec s v c = 0#8
  ne_zero : residueVec s v p ≠ 0#8

theorem residue_cases (s : State) (v : List Byte) : (∀ c < s.k, residueVec s v c = 0#8) ∨ ∃ p, Leads s v p := by
  by_cases h : ∃ p, p < s.k ∧ residueVec s v p ≠ 0#8
  · obtain ⟨hlt, hne⟩ := Nat.find_spec h
    exact .inr ⟨Nat.find h, hlt, fun c hc => by_contra fun hcne => Nat.find_min h hc ⟨hc.trans hlt, hcne⟩, hne⟩
  · exact .inl fun c hc => by_contra fun hne => h ⟨c, hc, hne⟩

theorem leading_eq {v : List Byte} {p : Nat} (hp : p < v.length) (hbefore : ∀ c < p, v.getD c 0#8 = 0#8)
    (hne : v.getD p 0#8 ≠ 0#8) : leading v = p := by
  refine (List.findIdx_eq hp).2 ⟨?_, fun c hc => ?_⟩
  · rwa [List.getD_eq_getElem _ _ hp, ← bne_iff_ne] at hne
  · have hzero := hbefore c hc
    rw [List.getD_eq_getElem _ _ (hc.trans hp)] at hzero
    simp [hzero]

/-- Only one entry is not zero: the entries beside one that is not are zero (R231). -/
theorem isUnitRow_iff {v : List Byte} {p : Nat} (hp : p < v.length) (hne : v.getD p 0#8 ≠ 0#8) :
    isUnitRow v = true ↔ ∀ c < v.length, c ≠ p → v.getD c 0#8 = 0#8 := by
  rw [List.getD_eq_getElem _ _ hp] at hne
  have hpos : 0 < v.countP (fun x => x != 0#8) := List.countP_pos_iff.2 ⟨_, List.getElem_mem hp, bne_iff_ne.2 hne⟩
  have hcount : (v.set p 0#8).countP (fun x => x != 0#8) = v.countP (fun x => x != 0#8) - 1 := by
    simp [List.countP_set, hp, hne]
  have hunit : isUnitRow v = true ↔ (v.set p 0#8).countP (fun x => x != 0#8) = 0 := by
    rw [isUnitRow, beq_iff_eq, ← List.countP_eq_length_filter, hcount]
    omega
  rw [hunit, List.countP_eq_zero, List.forall_mem_iff_getElem]
  simp only [List.length_set, List.getElem_set]
  refine forall₂_congr fun c hc => ?_
  rw [List.getD_eq_getElem _ _ hc]
  by_cases hcp : c = p
  · simp [hcp]
  · simp [hcp, Ne.symm hcp]

/-! ### The symbol data under forward elimination (R225, R226) -/

/-- The row that an innovative read adds: the payload's row, reduced and normalized. -/
def newRow (v : List Byte) (s : State) : Scratch := normalize s.params s.field (reducedRow v s)

/-- Elimination with the rows below n keeps the row's lengths. -/
theorem length_eliminate_prefix {s : State} {v : List Byte} (hlen : v.length = s.k) (n : Nat) :
    let x := (List.range n).foldl (eliminateWith s.params s.field s.k s.symSize s.piv ⟨s.rows, s.blk⟩) (loadScratch v s)
    x.v.length = s.k ∧ x.d.length = s.symSize :=
  List.foldlRecOn (motive := fun x : Scratch => x.v.length = s.k ∧ x.d.length = s.symSize) _ _
    ⟨hlen, Memory.length_readRun ..⟩ fun _ ⟨hv, hd⟩ j _ => length_eliminateWith j hv hd

section

variable {s : State} (hlegal : paramsLegal s.params = true) (hr : Rref s)

theorem getD_symData (blk : Memory) {S r t : Nat} (ht : t < S) :
    (symData blk S r).getD t 0#8 = blk.read (symAt S r + t) :=
  Memory.getD_readRun _ _ _ _ ht _

include hlegal

/-- What elimination with row j takes off byte t of the symbol data. -/
theorem getD_eliminateWith_data {x : Scratch} (hx : x.d.length = s.symSize) (j : Nat) {t : Nat} (ht : t < s.symSize) :
    (eliminateWith s.params s.field s.k s.symSize s.piv ⟨s.rows, s.blk⟩ x j).d.getD t 0#8
      = x.d.getD t 0#8 ^^^
        if pivHeld s.piv j then mulb s.params s.field (x.v.getD j 0#8) (s.blk.read (symAt s.symSize j + t)) else 0#8 := by
  unfold eliminateWith
  cases hp : pivHeld s.piv j with
  | false => simp
  | true =>
    by_cases hz : x.v.getD j 0#8 = 0#8
    · rw [hz, zero_mulb hlegal]
      simp
    · simp only [Bool.true_and, bne_iff_ne, ne_eq, hz, not_false_eq_true, if_true]
      rw [getD_xorVec _ _ _ (by omega) (by simpa using ht), getD_scaleData _ _ _ _ _ (by simpa using ht),
        getD_symData _ ht]

variable {v : List Byte} (hlen : v.length = s.k) (hv : IsOver s.field v)

include hr hlen hv

/-- Elimination with the rows below n leaves the entry of a held column that is still to come. -/
theorem getD_eliminate_prefix_held {n : Nat} (hh : held s n) :
    ((List.range n).foldl (eliminateWith s.params s.field s.k s.symSize s.piv ⟨s.rows, s.blk⟩) (loadScratch v s)).v.getD n 0#8
      = v.getD n 0#8 := by
  have hlt := hh.1
  rw [(getD_eliminate_prefix hlegal hr hlen hv hlt.le).2 n hlt, xorSum_eq_zero fun j hj => ?_, BitVec.xor_zero]
  cases hpj : pivHeld s.piv j with
  | false => rfl
  | true =>
    rw [if_pos rfl, hr.zeroAtPivots j n ⟨hj.trans hlt, hpj⟩ hh hj.ne']
    exact mulF_zero hlegal (hv j)

/-- Elimination with the rows below n, as one sum over their symbol data. -/
theorem getD_eliminate_prefix_data {n : Nat} (hn : n ≤ s.k) {t : Nat} (ht : t < s.symSize) :
    ((List.range n).foldl (eliminateWith s.params s.field s.k s.symSize s.piv ⟨s.rows, s.blk⟩) (loadScratch v s)).d.getD t 0#8
      = s.pbuf.read (s.hdr + t) ^^^ xorSum n (fun j =>
        if pivHeld s.piv j then mulb s.params s.field (v.getD j 0#8) (s.blk.read (symAt s.symSize j + t)) else 0#8) := by
  induction n with
  | zero => exact (Memory.getD_readRun _ _ _ _ ht _).trans BitVec.xor_zero.symm
  | succ n ih =>
    rw [List.range_succ, List.foldl_append, List.foldl_cons, List.foldl_nil,
      getD_eliminateWith_data hlegal (length_eliminate_prefix hlen n).2 n ht, ih (by omega), xorSum_succ, BitVec.xor_assoc]
    congr 2
    cases hp : pivHeld s.piv n with
    | false => rfl
    | true => rw [getD_eliminate_prefix_held hlegal hr hlen hv ⟨hn, hp⟩]

/-- The reduced symbol data is the residue after elimination with the held rows (R226). -/
theorem getD_reducedRow_data {t : Nat} (ht : t < s.symSize) : (reducedRow v s).d.getD t 0#8 = residueData s v t :=
  getD_eliminate_prefix_data hlegal hr hlen hv le_rfl ht

end

/-! ### The new row (R227, R231) -/

section

variable {s : State} (hi : Inv s) (hr : Rref s) {v : List Byte} (hparsed : s.parsed = some v)

include hi hr hparsed

theorem getD_reducedRow_of_parsed {c : Nat} (hc : c < s.k) : (reducedRow v s).v.getD c 0#8 = residueVec s v c :=
  getD_reducedRow hi.legal hr (length_parseVector hparsed) (isOver_parseVector hparsed) hc

theorem readParsed_of_zero (hzero : ∀ c < s.k, residueVec s v c = 0#8) :
    readParsed v s = readDependent v (reducedRow v s) s := by
  refine if_neg (Bool.eq_false_iff.1 (nonzero_eq_false_iff.2 fun x hx => ?_))
  obtain ⟨c, hc, rfl⟩ := List.mem_iff_getElem.1 hx
  rw [(length_reducedRow (length_parseVector hparsed)).1] at hc
  rw [← List.getD_eq_getElem _ 0#8, getD_reducedRow_of_parsed hi hr hparsed hc, hzero c hc]

variable {p : Nat} (hp : Leads s v p)

include hp

theorem leading_reducedRow : leading (reducedRow v s).v = p := by
  have hget : ∀ c < s.k, _ := fun c hc => getD_reducedRow_of_parsed hi hr hparsed hc
  refine leading_eq ?_ (fun c hc => ?_) ?_
  · rw [(length_reducedRow (length_parseVector hparsed)).1]
    exact hp.lt
  · rw [hget c (hc.trans hp.lt), hp.before c hc]
  · rw [hget p hp.lt]
    exact hp.ne_zero

theorem nonzero_reducedRow : nonzero (reducedRow v s).v = true := by
  by_contra hzero
  have hall := nonzero_eq_false_iff.1 (Bool.eq_false_iff.2 hzero)
  have hlt : p < (reducedRow v s).v.length := (length_reducedRow (length_parseVector hparsed)).1 ▸ hp.lt
  refine hp.ne_zero ?_
  rw [← getD_reducedRow_of_parsed hi hr hparsed hp.lt, List.getD_eq_getElem _ _ hlt]
  exact hall _ (List.getElem_mem hlt)

theorem readParsed_of_leads : readParsed v s = readInnovative v p (newRow v s) s := by
  rw [readParsed, if_pos (nonzero_reducedRow hi hr hparsed hp), leading_reducedRow hi hr hparsed hp, newRow]

theorem pivotRow_newRow : PivotRow s p (newRow v s) := by
  have hv := isOver_parseVector hparsed
  have hget : ∀ c < s.k, _ := fun c hc => getD_reducedRow_of_parsed hi hr hparsed hc
  rw [← leading_reducedRow hi hr hparsed hp]
  exact pivotRow_normalize hi.legal (length_reducedRow (length_parseVector hparsed)).1
    (fun c hc => by rw [hget c hc]; exact holds_residueVec hi.legal hr hv hc)
    (fun r hh => by rw [hget r hh.1]; exact residueVec_held hi.legal hr hv hh) (nonzero_reducedRow hi hr hparsed hp)

theorem getD_newRow {c : Nat} (hc : c < s.k) :
    (newRow v s).v.getD c 0#8 = mulF s.params s.field (invF s.params s.field (residueVec s v p)) (residueVec s v c) := by
  have hlen := (length_reducedRow (length_parseVector hparsed)).1
  rw [newRow, getD_normalize _ _ (hlen.symm ▸ hc), leading_reducedRow hi hr hparsed hp,
    getD_reducedRow_of_parsed hi hr hparsed hp.lt, getD_reducedRow_of_parsed hi hr hparsed hc]

theorem getD_newRow_data {t : Nat} (ht : t < s.symSize) :
    (newRow v s).d.getD t 0#8
      = mulb s.params s.field (invF s.params s.field (residueVec s v p)) (residueData s v t) := by
  have hlen := length_parseVector hparsed
  rw [newRow, normalize, leading_reducedRow hi hr hparsed hp, getD_reducedRow_of_parsed hi hr hparsed hp.lt,
    getD_scaleData _ _ _ _ _ ((length_reducedRow hlen).2.symm ▸ ht),
    getD_reducedRow_data hi.legal hr hlen (isOver_parseVector hparsed) ht]

end

theorem length_newRow_data {s : State} {v : List Byte} (hparsed : s.parsed = some v) :
    (newRow v s).d.length = s.symSize := by
  simp [newRow, normalize, (length_reducedRow (length_parseVector hparsed)).2]

/-! ### The block after an innovative read (R227, R228, R237) -/

/-- Symbols lie apart: a symbol written leaves the bytes of every other symbol. -/
theorem read_writeSymbol (m : Memory) {S r r' t : Nat} {d : List Byte} (hd : d.length = S) (ht : t < S) :
    (m.writeRun (symAt S r) d).read (symAt S r' + t) = if r' = r then d.getD t 0#8 else m.read (symAt S r' + t) := by
  rw [Memory.read_writeRun, hd]
  by_cases hrr : r' = r
  · subst hrr
    simp [ht]
  · rw [if_neg hrr, if_neg fun hin => ?_]
    obtain ⟨u, hu, heq⟩ := exists_symAt_add hin
    exact hrr (symAt_add_inj ht hu heq).1

/-- What back-substitution leaves of byte t of the symbol of row r, where r is held. -/
def substitutedData (s : State) (pcol : Nat) (x : Scratch) (r t : Nat) : Byte :=
  s.blk.read (symAt s.symSize r + t) ^^^ mulb s.params s.field (entry s r pcol) (x.d.getD t 0#8)

section

variable {s : State} (hlegal : paramsLegal s.params = true) {pcol : Nat} {x : Scratch} (hd : x.d.length = s.symSize)

include hlegal hd

/-- Back-substitution in row n, which is as in `s`, changes no other symbol; with nothing in the pivot column it changes nothing. -/
theorem read_backSubstRow_data {m : Held} {n : Nat} (hentry : m.rows.read (rowAt n + pcol) = entry s n pcol)
    (hsym : ∀ t < s.symSize, m.blk.read (symAt s.symSize n + t) = s.blk.read (symAt s.symSize n + t)) {r t : Nat}
    (ht : t < s.symSize) :
    (backSubstRow s.params s.field s.k s.symSize s.piv pcol x m n).blk.read (symAt s.symSize r + t)
      = if r = n ∧ pivHeld s.piv n = true then substitutedData s pcol x n t else m.blk.read (symAt s.symSize r + t) := by
  unfold backSubstRow
  rw [hentry]
  cases hp : pivHeld s.piv n with
  | false => simp
  | true =>
    by_cases hz : entry s n pcol = 0#8
    · by_cases hrn : r = n
      · subst hrn
        rw [substitutedData, hz, zero_mulb hlegal]
        simp [hsym t ht]
      · simp [hz, hrn]
    · rw [if_pos (by simp [hz]), read_writeSymbol _ (by simp [hd]) ht]
      by_cases hrn : r = n
      · rw [if_pos hrn, if_pos ⟨hrn, rfl⟩, getD_xorVec _ _ _ (by simpa using ht) (by simpa [hd] using ht),
          getD_scaleData _ _ _ _ _ (by simpa [hd] using ht), getD_symData _ ht, hsym t ht]
        rfl
      · rw [if_neg hrn, if_neg fun h => hrn h.1]

variable (hk : s.k ≤ 256) (hx : PivotRow s pcol x)

include hk hx

/-- Back-substitution with the rows below n takes their multiples of the new data out of the held ones of them. -/
theorem read_backSubst_prefix_data {n r t : Nat} (ht : t < s.symSize) :
    ((List.range n).foldl (backSubstRow s.params s.field s.k s.symSize s.piv pcol x) ⟨s.rows, s.blk⟩).blk.read
        (symAt s.symSize r + t)
      = if r < n ∧ pivHeld s.piv r = true then substitutedData s pcol x r t else s.blk.read (symAt s.symSize r + t) := by
  induction n generalizing r t with
  | zero => simp
  | succ n ih =>
    simp only [List.range_succ, List.foldl_append, List.foldl_cons, List.foldl_nil]
    have hentry := read_backSubst_prefix hlegal hk hx (n := n) (r := n) hx.lt
    rw [if_neg (by omega)] at hentry
    rw [read_backSubstRow_data hlegal hd hentry (fun t ht => by rw [ih ht, if_neg (by omega)]) ht, ih ht]
    by_cases hrn : r = n
    · subst hrn
      simp
    · have hlt : r < n + 1 ↔ r < n := by omega
      simp [hrn, hlt]

/-- The symbols after an innovative read: the new row's data, the held rows' data as their rows, the others untouched. -/
theorem read_readInnovative_data (v : List Byte) {r t : Nat} (hrk : r < s.k) (ht : t < s.symSize) :
    (readInnovative v pcol x s).blk.read (symAt s.symSize r + t)
      = if r = pcol then x.d.getD t 0#8
        else if pivHeld s.piv r = true then substitutedData s pcol x r t else s.blk.read (symAt s.symSize r + t) := by
  have hsubst := read_backSubst_prefix_data hlegal hd hk hx (n := s.k) (r := r) ht
  simp only [hrk, true_and] at hsubst
  rw [← hsubst]
  exact read_writeSymbol _ hd ht

end

theorem PivotRow.ne_of_held {s : State} {pcol : Nat} {x : Scratch} (hx : PivotRow s pcol x) {r : Nat} (hh : held s r) :
    r ≠ pcol := by
  rintro rfl
  exact Bool.false_ne_true (hx.not_held.symm.trans hh.2)

section

variable {s : State} (hlegal : paramsLegal s.params = true) (hk : s.k ≤ 256) {pcol : Nat} {x : Scratch}
  (hx : PivotRow s pcol x) (v : List Byte)

include hlegal hk hx

theorem entry_readInnovative_pivot {c : Nat} (hc : c < s.k) :
    entry (readInnovative v pcol x s) pcol c = x.v.getD c 0#8 :=
  (entry_readInnovative hlegal hk hx v hx.lt hc).trans (if_pos rfl)

theorem entry_readInnovative_held {r c : Nat} (hh : held s r) (hc : c < s.k) :
    entry (readInnovative v pcol x s) r c = substituted s pcol x r c :=
  (entry_readInnovative hlegal hk hx v hh.1 hc).trans ((if_neg (hx.ne_of_held hh)).trans (if_pos hh.2))

variable (hd : x.d.length = s.symSize)

include hd

theorem read_readInnovative_pivot {t : Nat} (ht : t < s.symSize) :
    (readInnovative v pcol x s).blk.read (symAt s.symSize pcol + t) = x.d.getD t 0#8 :=
  (read_readInnovative_data hlegal hd hk hx v hx.lt ht).trans (if_pos rfl)

theorem read_readInnovative_held {r t : Nat} (hh : held s r) (ht : t < s.symSize) :
    (readInnovative v pcol x s).blk.read (symAt s.symSize r + t) = substitutedData s pcol x r t :=
  (read_readInnovative_data hlegal hd hk hx v hh.1 ht).trans ((if_neg (hx.ne_of_held hh)).trans (if_pos hh.2))

end

/-! ### The bytes and entries that an innovative read leaves alone (R237) -/

/-- `m` holds what `s` holds in every byte of BLK outside the symbols, and every entry of ROWS outside the rows, whose index has
the property `written`. -/
structure KeptOutside (s : State) (written : Nat → Prop) (m : Held) : Prop where
  blk : ∀ a, (∀ r, written r → ¬(symAt s.symSize r ≤ a ∧ a < symAt s.symSize r + s.symSize)) →
    m.blk.read a = s.blk.read a
  rows : ∀ off, (∀ r, written r → ¬(rowAt r ≤ off ∧ off < rowAt r + s.k)) → m.rows.read off = s.rows.read off

section

variable {s : State} {written : Nat → Prop} {m : Held} (hm : KeptOutside s written m)

include hm

theorem keptOutside_writeRow {r : Nat} (hr : written r) {v d : List Byte} (hv : v.length = s.k) (hd : d.length = s.symSize) :
    KeptOutside s written ⟨m.rows.writeRun (rowAt r) v, m.blk.writeRun (symAt s.symSize r) d⟩ where
  blk a ha := by rw [Memory.read_writeRun, hd, if_neg (ha r hr), hm.blk a ha]
  rows off hoff := by rw [Memory.read_writeRun, hv, if_neg (hoff r hr), hm.rows off hoff]

theorem keptOutside_backSubst (hheld : ∀ r, held s r → written r) (pcol : Nat) {x : Scratch} (hv : x.v.length = s.k)
    (hd : x.d.length = s.symSize) :
    KeptOutside s written (backSubst s.params s.field s.k s.symSize s.piv pcol x m) := by
  refine List.foldlRecOn (motive := KeptOutside s written) _ _ hm fun m hm r hr => ?_
  unfold backSubstRow
  split
  · next hround =>
    obtain ⟨hp, _⟩ := Bool.and_eq_true_iff.1 hround
    exact keptOutside_writeRow hm (hheld r ⟨List.mem_range.1 hr, hp⟩) (by simp [hv]) (by simp [hd])
  · exact hm

end

/-- An innovative read writes only the symbols and rows that are held after it. -/
theorem keptOutside_readInnovative {s : State} (hk : s.k ≤ 256) {pcol : Nat} {x : Scratch} (hx : PivotRow s pcol x)
    (hd : x.d.length = s.symSize) (v : List Byte) :
    KeptOutside s (held (readInnovative v pcol x s))
      ⟨(readInnovative v pcol x s).rows, (readInnovative v pcol x s).blk⟩ := by
  have hheld : ∀ {r}, held s r ∨ r = pcol → held (readInnovative v pcol x s) r := (held_readInnovative hk hx).2
  have hstart : KeptOutside s (held (readInnovative v pcol x s)) ⟨s.rows, s.blk⟩ := ⟨fun _ _ => rfl, fun _ _ => rfl⟩
  exact keptOutside_writeRow (keptOutside_backSubst hstart (fun r hh => hheld (.inl hh)) pcol hx.length hd)
    (hheld (.inr rfl)) hx.length hd

/-! ### Dependent and innovative payloads -/

/-- Settles O44: the reduced row is zero, so nothing is stored but the vector and the scratch row. -/
theorem dependentPayloadIsAbsorbed : Obligations.DependentPayloadIsAbsorbed := by
  intro s v hi hr hc hd hrank hplen hparsed hzero
  have hlen := length_parseVector hparsed
  refine ⟨_, exec_decRead_of_parsed hc hd hrank hplen hparsed, ?_⟩
  rw [readParsed_of_zero hi hr hparsed hzero]
  exact ⟨rfl, fun i hik => read_writeCvec_inside (hlen.symm ▸ hik) s,
    fun i hki => read_writeCvec_outside (hlen.trans_le hki) s⟩

/-- Settles O45: the new row is the payload's residue, normalized; each held row loses its multiple of it. -/
theorem innovativePayloadBecomesPivotRow : Obligations.InnovativePayloadBecomesPivotRow := by
  intro s v p hi hr hc hd hrank hplen hparsed hpk hbefore hne
  have hp : Leads s v p := ⟨hpk, hbefore, hne⟩
  have hk : s.k ≤ 256 := (hi.activeOk hc).k_le.trans hi.kMax_le
  have hx := pivotRow_newRow hi hr hparsed hp
  have hxd := length_newRow_data hparsed
  have hlen := length_parseVector hparsed
  have hnew : ∀ c < s.k, _ := fun c hck => entry_readInnovative_pivot hi.legal hk hx v hck
  have hnewData : ∀ b < s.symSize, _ := fun b hb => read_readInnovative_pivot hi.legal hk hx v hxd hb
  have hkept := keptOutside_readInnovative hk hx hxd v
  refine ⟨_, exec_decRead_of_parsed hc hd hrank hplen hparsed, ?_⟩
  rw [readParsed_of_leads hi hr hparsed hp]
  refine ⟨rfl, hx.not_held, pivHeld_pivSet s.piv (hpk.trans_le hk),
    fun i hik => read_writeCvec_inside (hlen.symm ▸ hik) s, fun c hck => ?_, fun b hb => ?_, fun r c hh hck => ?_,
    fun r b hh hb => ?_, hkept.blk, hkept.rows, ?_⟩
  · exact (hnew c hck).trans (getD_newRow hi hr hparsed hp hck)
  · exact (hnewData b hb).trans (getD_newRow_data hi hr hparsed hp hb)
  · refine (entry_readInnovative_held hi.legal hk hx v hh hck).trans ?_
    rw [substituted, ← hnew c hck]
    rfl
  · refine (read_readInnovative_held hi.legal hk hx v hxd hh hb).trans ?_
    rw [substitutedData, ← hnewData b hb]
    rfl
  · refine (isUnitRow_iff (hx.length.symm ▸ hpk) (by rw [hx.pivotOne]; decide)).trans ?_
    rw [hx.length]
    exact forall₃_congr fun c hck _ => by rw [← hnew c hck]; rfl

end Sys2Proof.Machine

namespace Sys2Proof.Machine

open Sys2Proof

/-! ## RANK and PIV (spec/44_decoder R230) -/

/-- Every parsed payload is dependent or innovative; the new pivot of an innovative one was not held (R229, R230). -/
theorem readParsed_cases {s : State} (hi : Inv s) (hr : Rref s) {v : List Byte} (hparsed : s.parsed = some v) :
    readParsed v s = readDependent v (reducedRow v s) s
      ∨ ∃ p, PivotRow s p (newRow v s) ∧ Leads s v p ∧ readParsed v s = readInnovative v p (newRow v s) s := by
  obtain hzero | ⟨p, hp⟩ := residue_cases s v
  · exact .inl (readParsed_of_zero hi hr hparsed hzero)
  · exact .inr ⟨p, pivotRow_newRow hi hr hparsed hp, hp, readParsed_of_leads hi hr hparsed hp⟩

/-- `t` has one more held pivot than `s`, by an innovative read. -/
def RankRises (s t : State) : Prop :=
  t.lastRead = .innovative ∧ t.rank.toNat = s.rank.toNat + 1 ∧ t.rank.toNat ≤ s.k
    ∧ ∃ p, p < s.k ∧ pivHeld s.piv p = false ∧ ∀ r, pivHeld t.piv r = (pivHeld s.piv r || decide (r = p))

theorem execDecRead_rank {s : State} (hi : Inv s) (hr : Rref s) :
    Yields (fun t => (t.rank = s.rank ∧ t.piv = s.piv) ∨ RankRises s t) (execDecRead s) := by
  refine yields_execDecRead (fun _ => .inl ⟨rfl, rfl⟩) (.inl ⟨rfl, rfl⟩) fun hc hd hrank v hparsed => ?_
  obtain h | ⟨p, hx, _, h⟩ := readParsed_cases hi hr hparsed <;> rw [h]
  · exact .inl ⟨rfl, rfl⟩
  · obtain ⟨hlt, hsucc⟩ := (hi.decoderOk hc hd).rank_succ hrank
    have hk : s.k ≤ 256 := (hi.activeOk hc).k_le.trans hi.kMax_le
    exact .inr ⟨rfl, hsucc, hsucc.trans_le hlt, p, hx.lt, hx.not_held, pivHeld_pivSet s.piv (hx.lt.trans_le hk)⟩

theorem execInit_rank (s : State) : Yields (fun t => t.rank = 0#32 ∧ t.piv = 0#256) (execInit s) := by
  unfold execInit
  split
  · exact yields_finish.2 ⟨rfl, rfl⟩
  · exact yields_raise.2 ⟨rfl, rfl⟩

/-- Settles O20: INIT clears the two, an innovative read adds one pivot, and every other command leaves the rows alone. -/
theorem rankRisesOnlyByInnovativeReads : Obligations.RankRisesOnlyByInnovativeReads := by
  intro i s t hi hr hexec
  by_cases hinit : i = .init
  · subst hinit
    exact .inr (.inr ⟨rfl, execInit_rank s t hexec⟩)
  by_cases hread : i = .decRead
  · subst hread
    exact (execDecRead_rank hi hr t hexec).imp_right fun h => .inl ⟨rfl, h⟩
  · have hframe := exec_rowFrame hinit hread s t hexec
    exact .inl ⟨hframe.rank, hframe.piv⟩

end Sys2Proof.Machine

namespace Sys2Proof.Machine

open Sys2Proof

/-! ## The decoder's block (spec/44_decoder R235, R236)

### Combinations of a block's symbols -/

theorem xorSum_xor (n : Nat) (f g : Nat → Byte) : xorSum n (fun c => f c ^^^ g c) = xorSum n f ^^^ xorSum n g := by
  induction n with
  | zero => exact BitVec.xor_self.symm
  | succ n ih => rw [xorSum_succ, xorSum_succ, xorSum_succ, ih]; ac_rfl

theorem mulb_xorSum {p : Params} (hp : paramsLegal p = true) {F : Field} {a : Byte} (ha : F.holds a = true) (n : Nat)
    (f : Nat → Byte) : mulb p F a (xorSum n f) = xorSum n fun c => mulb p F a (f c) := by
  induction n with
  | zero =>
    calc mulb p F a 0#8
      _ = mulb p F a 0#8 ^^^ mulb p F a 0#8 := mulb_xor hp ha 0#8 0#8
      _ = 0#8 := BitVec.xor_self
  | succ n ih => rw [xorSum_succ, xorSum_succ, mulb_xor hp ha, ih]

/-- Byte t of the combination of the block's k symbols with the coefficients f. -/
def blockSum (block : Memory) (s : State) (f : Nat → Byte) (t : Nat) : Byte :=
  xorSum s.k fun c => mulb s.params s.field (f c) (block.read (symAt s.symSize c + t))

section

variable {block : Memory} {s : State} {t : Nat}

theorem blockSum_congr {f g : Nat → Byte} (h : ∀ c < s.k, f c = g c) : blockSum block s f t = blockSum block s g t :=
  xorSum_congr fun c hc => by rw [h c hc]

theorem combination_eq_blockSum {v : List Byte} (hv : v.length = s.k) :
    combination s.params s.field s.symSize v block t = blockSum block s (fun c => v.getD c 0#8) t := by
  rw [combination, hv, blockSum]

theorem combination_rowVec (r : Nat) :
    combination s.params s.field s.symSize (rowVec s.rows s.k r) block t = blockSum block s (entry s r) t :=
  (combination_eq_blockSum (length_rowVec ..)).trans (blockSum_congr fun _ hc => getD_rowVec s hc)

theorem trueOf_iff : trueOf block s ↔
    ∀ r t, held s r → t < s.symSize → s.blk.read (symAt s.symSize r + t) = blockSum block s (entry s r) t := by
  simp only [trueOf, combination_rowVec]

theorem payloadTrueOf_iff {v : List Byte} (hv : v.length = s.k) : payloadTrueOf block v s ↔
    ∀ t < s.symSize, s.pbuf.read (s.hdr + t) = blockSum block s (fun c => v.getD c 0#8) t := by
  simp only [payloadTrueOf, combination_eq_blockSum hv]

variable (hlegal : paramsLegal s.params = true)

include hlegal

theorem blockSum_zero : blockSum block s (fun _ => 0#8) t = 0#8 :=
  xorSum_eq_zero fun _ _ => zero_mulb hlegal _

theorem blockSum_xor {f g : Nat → Byte} (hf : ∀ c < s.k, s.field.holds (f c) = true)
    (hg : ∀ c < s.k, s.field.holds (g c) = true) :
    blockSum block s (fun c => f c ^^^ g c) t = blockSum block s f t ^^^ blockSum block s g t := by
  rw [blockSum, blockSum, blockSum, ← xorSum_xor]
  exact xorSum_congr fun c hc => xor_mulb hlegal (hf c hc) (hg c hc) _

theorem blockSum_mulF {a : Byte} (ha : s.field.holds a = true) {f : Nat → Byte}
    (hf : ∀ c < s.k, s.field.holds (f c) = true) :
    blockSum block s (fun c => mulF s.params s.field a (f c)) t = mulb s.params s.field a (blockSum block s f t) := by
  rw [blockSum, blockSum, mulb_xorSum hlegal ha]
  exact xorSum_congr fun c hc => mulb_mulF hlegal ha (hf c hc) _

theorem blockSum_xorSum {n : Nat} {g : Nat → Nat → Byte} (hg : ∀ j < n, ∀ c < s.k, s.field.holds (g j c) = true) :
    blockSum block s (fun c => xorSum n fun j => g j c) t = xorSum n fun j => blockSum block s (g j) t := by
  induction n with
  | zero => exact blockSum_zero hlegal
  | succ n ih =>
    have hbelow : ∀ j < n, ∀ c < s.k, s.field.holds (g j c) = true := fun j hj => hg j (by omega)
    simp only [xorSum_succ]
    rw [blockSum_xor hlegal (fun c hc => holds_xorSum fun j hj => hbelow j hj c hc) (hg n (by omega)), ih hbelow]

end

/-! ### A true payload gives true rows (R235) -/

section

variable {block : Memory} {s : State} (hi : Inv s) (hr : Rref s) (htrue : trueOf block s) {v : List Byte}
  (hparsed : s.parsed = some v) (hpay : payloadTrueOf block v s)

include hi hr htrue hparsed hpay

/-- Elimination takes true rows off a true row, so the reduced row is true. -/
theorem residueData_eq_blockSum {t : Nat} (ht : t < s.symSize) :
    residueData s v t = blockSum block s (residueVec s v) t := by
  have hv := isOver_parseVector hparsed
  have hrow : ∀ j < s.k, ∀ c < s.k,
      s.field.holds (if pivHeld s.piv j then mulF s.params s.field (v.getD j 0#8) (entry s j c) else 0#8) = true := by
    intro j hj c hc
    split
    · next hp => exact holds_mulF hi.legal (hv j) (hr.elements j c ⟨hj, hp⟩ hc)
    · exact s.field.holds_zero
  unfold residueData residueVec
  rw [blockSum_xor hi.legal (fun c _ => hv c) fun c hc => holds_xorSum fun j hj => hrow j hj c hc,
    blockSum_xorSum hi.legal hrow, (payloadTrueOf_iff (length_parseVector hparsed)).1 hpay t ht]
  congr 1
  refine xorSum_congr fun j hj => ?_
  cases hp : pivHeld s.piv j with
  | false => exact (blockSum_zero hi.legal).symm
  | true =>
    simp only [if_true]
    rw [blockSum_mulF hi.legal (hv j) fun c hc => hr.elements j c ⟨hj, hp⟩ hc, trueOf_iff.1 htrue j t ⟨hj, hp⟩ ht]

variable {p : Nat} (hp : Leads s v p)

include hp

/-- Normalization scales a true row, so the new row is true. -/
theorem newRow_eq_blockSum {t : Nat} (ht : t < s.symSize) :
    (newRow v s).d.getD t 0#8 = blockSum block s (fun c => (newRow v s).v.getD c 0#8) t := by
  have hres : ∀ c < s.k, s.field.holds (residueVec s v c) = true := fun c hc =>
    holds_residueVec hi.legal hr (isOver_parseVector hparsed) hc
  rw [getD_newRow_data hi hr hparsed hp ht, residueData_eq_blockSum hi hr htrue hparsed hpay ht,
    ← blockSum_mulF hi.legal (holds_invF hi.legal (hres p hp.lt)) hres]
  exact blockSum_congr fun c hc => (getD_newRow hi hr hparsed hp hc).symm

/-- Back-substitution takes multiples of a true row off true rows, so the held rows stay true. -/
theorem trueOf_readInnovative (hk : s.k ≤ 256) : trueOf block (readInnovative v p (newRow v s) s) := by
  have hx := pivotRow_newRow hi hr hparsed hp
  have hxd := length_newRow_data hparsed
  refine trueOf_iff.2 fun r t hh ht => ?_
  change (readInnovative v p (newRow v s) s).blk.read (symAt s.symSize r + t)
    = blockSum block s (entry (readInnovative v p (newRow v s) s) r) t
  replace ht : t < s.symSize := ht
  have hnew := newRow_eq_blockSum hi hr htrue hparsed hpay hp ht
  obtain hh | rfl := (held_readInnovative hk hx).1 hh
  · have hcoef := hr.elements r p hh hx.lt
    rw [read_readInnovative_held hi.legal hk hx v hxd hh ht, substitutedData, trueOf_iff.1 htrue r t hh ht, hnew,
      ← blockSum_mulF hi.legal hcoef hx.elements,
      ← blockSum_xor hi.legal (hr.elements r · hh) fun c hc => holds_mulF hi.legal hcoef (hx.elements c hc)]
    exact blockSum_congr fun c hc => (entry_readInnovative_held hi.legal hk hx v hh hc).symm
  · rw [read_readInnovative_pivot hi.legal hk hx v hxd ht, hnew]
    exact blockSum_congr fun c hc => (entry_readInnovative_pivot hi.legal hk hx v hc).symm

end

/-! ### What the truth of the held rows rests on (R235) -/

/-- `t` has the rows of `s`, their size and their symbols in BLK, and the field operations. -/
structure BlockFrame (s t : State) : Prop extends RowFrame s t where
  params : t.params = s.params
  asymsize : t.asymsize = s.asymsize
  blk : t.blk = s.blk

theorem trueOf_of_frame {block : Memory} {s t : State} (h : trueOf block s) (hf : BlockFrame s t) : trueOf block t := by
  obtain ⟨⟨hrows, hpiv, _, hacfg, hsym⟩, hparams, hsize, hblk⟩ := hf
  have hk : t.k = s.k := by rw [State.k, hsym]; rfl
  have hS : t.symSize = s.symSize := by rw [State.symSize, hsize]; rfl
  have hF : t.field = s.field := by rw [State.field, hacfg]; rfl
  have hheld : ∀ r, held t r ↔ held s r := fun r => by rw [held, held, hk, hpiv]
  simpa only [trueOf, hheld, hrows, hparams, hblk, hk, hS, hF] using h

/-- Without a held row there is nothing to be true. -/
theorem trueOf_of_empty {block : Memory} {s : State} (hpiv : s.piv = 0) : trueOf block s := by
  intro r t hh
  have hp := hh.2
  rw [hpiv, pivHeld] at hp
  simp at hp

theorem HostFrame.blockFrame {s u : State} (h : HostFrame s u) (hblk : u.blk = s.blk) : BlockFrame s u where
  toRowFrame := h.rowFrame
  params := h.params
  asymsize := by rw [show u = _ from h]
  blk := hblk

/-- R236: the rows of a complete decoder are the unit vectors, so its symbols are the block's. -/
theorem read_blk_of_complete {block : Memory} {s : State} (hi : Inv s) (hr : Rref s) (htrue : trueOf block s)
    (hcomplete : s.complete = true) {a : Nat} (ha : a < s.k * s.symSize) : s.blk.read a = block.read a := by
  have hS : 0 < s.symSize := Nat.pos_of_lt_mul_left ha
  have hrow : a / s.symSize < s.k := Nat.div_lt_of_lt_mul (Nat.mul_comm s.k s.symSize ▸ ha)
  have haddr : symAt s.symSize (a / s.symSize) + a % s.symSize = a := Nat.div_add_mod' a s.symSize
  have hid := completeDecoderHasIdentityRows s hi hr hcomplete (a / s.symSize)
  have hread := trueOf_iff.1 htrue (a / s.symSize) (a % s.symSize) ⟨hrow, (hid _ hrow hrow).1⟩ (Nat.mod_lt a hS)
  have hother : ∀ c < s.k, c ≠ a / s.symSize → mulb s.params s.field (entry s (a / s.symSize) c)
      (block.read (symAt s.symSize c + a % s.symSize)) = 0#8 := fun c hc hne => by
    rw [(hid c hrow hc).2, if_neg hne.symm, zero_mulb hi.legal]
  rwa [blockSum, xorSum_eq_single hrow hother, (hid _ hrow hrow).2, if_pos rfl, one_mulb hi.legal, haddr] at hread

/-! ### The commands (R91, R235) -/

/-- Only GF.AXPY and DEC.READ write BLK (R91). -/
theorem exec_blk {i : Instr} (haxpy : ∀ coeff dst src, i ≠ .gfAxpy coeff dst src) (hread : i ≠ .decRead) (s : State) :
    Yields (fun t => t.blk = s.blk) (exec i s) := by
  cases i with
  | nop => exact yields_finish.2 rfl
  | init => exact fun t ht => (execInit_memories s t ht).2.1
  | gfAdd fld a b => exact yields_withRange (fun _ => rfl) fun _ => yields_finish.2 rfl
  | gfMul fld a b => exact yields_withRange (fun _ => rfl) fun _ => yields_finish.2 rfl
  | gfInv fld a =>
    refine yields_withRange (fun _ => rfl) fun _ => ?_
    split
    · exact yields_raise.2 rfl
    · exact yields_finish.2 rfl
  | gfAxpy coeff dst src => exact absurd rfl (haxpy coeff dst src)
  | genDense =>
    exact yields_withInstance (fun _ => rfl) fun _ => yields_withDraws (fun _ => rfl) fun _ => yields_finish.2 rfl
  | genSparse => exact yields_withInstance (fun _ => rfl) fun _ => yields_finish.2 rfl
  | encWrite =>
    refine yields_withRole rfl fun _ _ => ?_
    split
    · exact yields_finish.2 rfl
    split
    · exact yields_withDraws (fun _ => rfl) fun _ => yields_finish.2 rfl
    · exact yields_withDraws (fun _ => rfl) fun _ => yields_finish.2 rfl
  | encSetdens imm =>
    refine yields_withRole rfl fun _ _ => ?_
    split
    · exact yields_finish.2 rfl
    · exact yields_raise.2 rfl
  | decRead => exact absurd rfl hread

theorem exec_blockFrame {i : Instr} (hinit : i ≠ .init) (haxpy : ∀ coeff dst src, i ≠ .gfAxpy coeff dst src)
    (hread : i ≠ .decRead) (s : State) : Yields (BlockFrame s) (exec i s) := by
  intro t ht
  obtain ⟨_, _, _, hsize, _⟩ := activeConfig_eq_iff.1 (exec_activeConfig hinit s t ht)
  exact ⟨exec_rowFrame hinit hread s t ht, (exec_engineFrame i s t ht).params, hsize, exec_blk haxpy hread s t ht⟩

section

variable {block : Memory} {s : State} (hi : Inv s) (hr : Rref s) (htrue : trueOf block s)

include hi hr htrue

theorem execDecRead_trueOf (hpay : ∀ v, s.parsed = some v → payloadTrueOf block v s) :
    Yields (trueOf block) (execDecRead s) := by
  refine yields_execDecRead (fun _ => htrue) htrue fun hc _ _ v hparsed => ?_
  obtain h | ⟨p, _, hp, h⟩ := readParsed_cases hi hr hparsed <;> rw [h]
  · exact htrue
  · exact trueOf_readInnovative hi hr htrue hparsed (hpay v hparsed) hp ((hi.activeOk hc).k_le.trans hi.kMax_le)

theorem exec_trueOf {i : Instr} (haxpy : ∀ coeff dst src, i ≠ .gfAxpy coeff dst src)
    (hpay : i = .decRead → ∀ v, s.parsed = some v → payloadTrueOf block v s) : Yields (trueOf block) (exec i s) := by
  by_cases hinit : i = .init
  · subst hinit
    exact fun t ht => trueOf_of_empty (execInit_rank s t ht).2
  by_cases hread : i = .decRead
  · subst hread
    exact execDecRead_trueOf hi hr htrue (hpay rfl)
  · exact fun t ht => trueOf_of_frame htrue (exec_blockFrame hinit haxpy hread s t ht)

theorem engineTurn_trueOf (haxpy : ∀ coeff dst src, s.pending ≠ some (encode (.gfAxpy coeff dst src)))
    (hpay : s.pending = some (encode .decRead) → ∀ v, s.parsed = some v → payloadTrueOf block v s) :
    Yields (trueOf block) (engineTurn s) := by
  obtain ⟨_, ht⟩ | ⟨_, _, ht⟩ | ⟨_, _, _, _, _, ht⟩ | ⟨w, i, _, hpend, hdec, ht⟩ := engineTurn_cases (s := s) rfl
  · rw [ht]; exact yields_next.2 htrue
  · rw [ht]; exact yields_next.2 htrue
  · rw [ht]; exact yields_raise.2 htrue
  · obtain ⟨-, rfl⟩ := encodeDecodeAgree w i hdec
    rw [ht]
    refine exec_trueOf hi hr htrue (fun coeff dst src h => ?_) fun h => ?_
    · exact haxpy coeff dst src (h ▸ hpend)
    · exact hpay (h ▸ hpend)

end

/-! ### The host's writes below the BLK window (R70, R71) -/

theorem regWrite_blk (v : Word) (s : State) (r : Reg) : (regWrite v s r).blk = s.blk := by cases r <;> rfl

theorem hostRegWrite_blk (s : State) (r : Reg) (v : Word) : (hostRegWrite s r v).1.blk = s.blk := by
  obtain ⟨_, _, h⟩ | ⟨_, _, _, h⟩ | ⟨_, h⟩ := hostRegWrite_cases s r v <;> rw [h]
  exact regWrite_blk v s r

theorem pokeBytes_blk {s : State} {addr : Nat} {bs : List Byte} (h : addr + bs.length ≤ 0x1000000) :
    (pokeBytes s addr bs).blk = s.blk := by
  induction bs generalizing s addr with
  | nil => rfl
  | cons b bs ih =>
    rw [List.length_cons] at h
    rw [pokeBytes, ih (by omega)]
    obtain hb | ⟨a, _, _, hb⟩ | ⟨a, hplace, _, _⟩ := pokeByte_cases s addr b
    · rw [hb]
    · rw [hb]
    · have haddr := placeOf_eq_blk.1 hplace
      omega

theorem hostWrite_blk (s : State) {addr n : Nat} (hn : n = 1 ∨ n = 2 ∨ n = 4) (h : addr < 0x1000000) (v : Word) :
    (hostWrite s addr n v).1.blk = s.blk := by
  unfold hostWrite
  split
  · split
    · exact hostRegWrite_blk s _ v
    · rfl
  · rfl
  · split
    · next hopen =>
      obtain ⟨_, halign⟩ := windowOpen_iff.1 hopen
      exact pokeBytes_blk (by rw [length_unlanes]; exact add_le_of_aligned hn halign rfl h)
    · rfl

theorem sizeBytes_cases {size : BitVec 2} {n : Nat} (h : sizeBytes size = some n) : n = 1 ∨ n = 2 ∨ n = 4 := by
  unfold sizeBytes at h
  split_ifs at h <;> cases h <;> decide

theorem hostTransaction_trueOf {block : Memory} {size : BitVec 2} {s : State} (htrue : trueOf block s)
    {act : Nat → State × HostResp} (hact : ∀ n, n = 1 ∨ n = 2 ∨ n = 4 → trueOf block (act n).1) :
    Yields (trueOf block) (hostTransaction size s act) := by
  obtain ⟨_, h⟩ | ⟨_, _, h⟩ | ⟨n, _, hsize, h⟩ := hostTransaction_cases (size := size) (s := s) (act := act) rfl
  · rw [h]; exact yields_next.2 htrue
  · rw [h]; exact yields_next.2 htrue
  · rw [h]; exact yields_next.2 (hact n (sizeBytes_cases hsize))

theorem outsideEvent_trueOf {block : Memory} {s : State} (htrue : trueOf block s) {e : Event}
    (hwrite : ∀ addr size data, e = .write addr size data → addr.toNat < 0x1000000) :
    Yields (trueOf block) (outsideEvent e s) := by
  cases e with
  | read addr size => exact hostTransaction_trueOf htrue fun _ _ => htrue
  | write addr size data =>
    exact hostTransaction_trueOf htrue fun n hn => trueOf_of_frame htrue
      ((hostWrite_hostFrame s addr.toNat n data).blockFrame (hostWrite_blk s hn (hwrite _ _ _ rfl) data))
  | engine => exact yields_next.2 htrue
  | offer w => exact yields_next.2 htrue
  | rstRise d => exact yields_next.2 (trueOf_of_empty rfl)
  | rstFall => exact yields_next.2 htrue

/-! ### Every read of a true payload, and every step but those named (R235, R236) -/

/-- A decoder that parses its payload reads it without error, complete or not (R220, R232). -/
theorem exists_exec_decRead {s : State} (hc : s.configured = true) (hd : s.isDecoder = true) (hplen : s.plen = s.psize)
    {v : List Byte} (hparsed : s.parsed = some v) : ∃ t, exec .decRead s = .next t := by
  by_cases hrank : s.rank = s.asymbols
  · exact ⟨_, exec_decRead_of_complete hc hd hrank⟩
  · exact ⟨_, exec_decRead_of_parsed hc hd hrank hplen hparsed⟩

/-- Settles O46: elimination, normalization and back-substitution combine true rows to true rows, the rows of a complete decoder are
the unit vectors, and of the other steps none but those named writes a row or its symbol. -/
theorem decodingKeepsTheBlockTrue : Obligations.DecodingKeepsTheBlockTrue := by
  refine ⟨fun s v block hi hr hc hd hplen hparsed htrue hpay => ?_,
    fun s t block hi hr htrue hstep hwrite haxpy hpay => ?_⟩
  · obtain ⟨t, ht⟩ := exists_exec_decRead hc hd hplen hparsed
    have htrue' : trueOf block t := execDecRead_trueOf hi hr htrue
      (fun u hu => Option.some.inj (hparsed.symm.trans hu) ▸ hpay) t ht
    obtain ⟨_, _, hk, hS, _⟩ := activeConfig_eq_iff.1 (exec_activeConfig (i := .decRead) nofun s t ht)
    refine ⟨t, ht, htrue', fun hcomplete a ha => ?_⟩
    refine read_blk_of_complete (exec_inv .decRead hi t ht) (exec_rref .decRead hi hr t ht) htrue' hcomplete ?_
    rwa [State.k, State.symSize, hk, hS]
  · have hinbox : ∀ rest, Rref { s with inbox := rest } := fun rest => hr.of_frame (by constructor <;> rfl)
    obtain ⟨_, ht⟩ | ⟨rest, _, ht⟩ | ⟨e, rest, _, hact, ht⟩ := step_cases hstep
    · exact engineTurn_trueOf hi hr htrue haxpy hpay t ht.symm
    · exact engineTurn_trueOf (inv_inbox hi rest) (hinbox rest) htrue haxpy hpay t ht.symm
    · exact outsideEvent_trueOf (s := { s with inbox := rest }) htrue
        (fun addr size data he => hwrite addr size data rest (he ▸ hact)) t ht.symm

end Sys2Proof.Machine

namespace Sys2Proof.Machine

open Sys2Proof

/-! ## How a command ends (spec/60_exceptions R270-R278, R284; spec/20_memory R91)

### What a command may write (R91) -/

theorem sameIn_refl (s : State) (part : Part) : sameIn s s part := by
  cases part <;> simp [sameIn]

/-- The completion fields are no part of the table of R91. -/
theorem sameIn_complete {s u : State} {e : ErrCode} {part : Part} : sameIn s (complete e u) part ↔ sameIn s u part := by
  cases part <;> exact Iff.rfl

/-- `u` is `s` with writes of the command i only: those of its row of R91, and no ERRFLAGS bit (R30). -/
structure OwnWrites (i : Instr) (s u : State) : Prop where
  parts : ∀ part ∉ mayWrite i, sameIn s u part
  errflags : u.errflags = s.errflags

theorem ownWrites_refl (i : Instr) (s : State) : OwnWrites i s s := ⟨fun part _ => sameIn_refl s part, rfl⟩

theorem ownWrites_result {i : Instr} (hi : mayWrite i = [.result]) (r : Byte) (s : State) :
    OwnWrites i s (setResult r s) := by
  refine ⟨fun part hpart => ?_, rfl⟩
  cases part with
  | result => simp [hi] at hpart
  | _ => simp [sameIn]

theorem ownWrites_gfAxpy (coeff dst src : Byte) (s : State) (blk : Memory) :
    OwnWrites (.gfAxpy coeff dst src) s { s with blk := blk } := by
  refine ⟨fun part hpart => ?_, rfl⟩
  cases part with
  | blk => simp [mayWrite] at hpart
  | _ => simp [sameIn]

theorem ownWrites_genDense (s : State) (cvec : Memory) (draws : List Word) :
    OwnWrites .genDense s { s with cvec := cvec, draws := draws } := by
  refine ⟨fun part hpart => ?_, rfl⟩
  cases part with
  | cvec | draws => simp [mayWrite] at hpart
  | _ => simp [sameIn]

theorem ownWrites_genSparse (s : State) (cvec : Memory) : OwnWrites .genSparse s { s with cvec := cvec } := by
  refine ⟨fun part hpart => ?_, rfl⟩
  cases part with
  | cvec => simp [mayWrite] at hpart
  | _ => simp [sameIn]

theorem ownWrites_encWrite (s : State) (cvec pbuf : Memory) (plen cursor seed : Word) (coded : Bool) (draws : List Word) :
    OwnWrites .encWrite s
      { s with
        cvec := cvec, pbuf := pbuf, plen := plen, cursor := cursor, coded := coded, seedLast := seed, draws := draws } := by
  refine ⟨fun part hpart => ?_, rfl⟩
  cases part with
  | cvec | pbufPlen | cursorCoded | seedLast | draws => simp [mayWrite] at hpart
  | _ => simp [sameIn]

theorem ownWrites_encSetdens (imm : BitVec 16) (s : State) (density : Word) :
    OwnWrites (.encSetdens imm) s { s with density := density } := by
  refine ⟨fun part hpart => ?_, rfl⟩
  cases part with
  | density => simp [mayWrite] at hpart
  | _ => simp [sameIn]

theorem ownWrites_decRead (s : State) (cvec rows blk : Memory) (scrV scrD : List Byte) (rank : Word) (piv : BitVec 256)
    (last : LastRead) (unit : Bool) :
    OwnWrites .decRead s
      { s with
        cvec := cvec, rows := rows, blk := blk, scrV := scrV, scrD := scrD, rank := rank, piv := piv, lastRead := last
        unit := unit } := by
  refine ⟨fun part hpart => ?_, rfl⟩
  cases part with
  | cvec | scratch | rows | rankPiv | blk | readStatus => simp [mayWrite] at hpart
  | _ => simp [sameIn]

theorem ownWrites_readIgnored (s : State) : OwnWrites .decRead s (readIgnored s) :=
  ownWrites_decRead s s.cvec s.rows s.blk s.scrV s.scrD s.rank s.piv .ignored false

theorem ownWrites_readParsed (v : List Byte) (s : State) : OwnWrites .decRead s (readParsed v s) := by
  unfold readParsed
  split
  · exact ownWrites_decRead s _ _ _ _ _ _ _ _ _
  · exact ownWrites_decRead s _ s.rows s.blk _ _ s.rank s.piv .dependent false

/-- INIT with a valid and with an invalid configuration (R131, R135). -/
theorem ownWrites_init (s : State) :
    OwnWrites .init s (configure (teardown s)) ∧ OwnWrites .init s (unconfigure (teardown s)) := by
  refine ⟨⟨fun part hpart => ?_, rfl⟩, ⟨fun part hpart => ?_, rfl⟩⟩
  all_goals
    cases part with
    | activeConfig | rankPiv | readStatus | cvec | cursorCoded | seedLast | density => simp [mayWrite] at hpart
    | _ => simp [sameIn]

/-! ### The common checks (R272, R273) -/

theorem instanceOk_of_free {s : State} {i : Instr} (h : needsInstance i = false) : instanceOk s i := by
  simp [instanceOk, h]

theorem instanceOk_iff {s : State} {i : Instr} (hn : needsInstance i = true) (hr : needsRole i = none) :
    instanceOk s i ↔ s.configured = true := by
  simp [instanceOk, hn, hr]

theorem instanceOk_role_iff {s : State} {i : Instr} {d : Bool} (hn : needsInstance i = true) (hr : needsRole i = some d) :
    instanceOk s i ↔ s.configured = true ∧ s.isDecoder = d := by
  simp [instanceOk, hn, hr]

/-- The commands that take draws have no operands to check. -/
theorem operandsOk_of_draws {s : State} {i : Instr} (h : s.draws.length < drawsTaken s i) : operandsOk s i := by
  cases i with
  | genDense | encWrite => trivial
  | _ => exact absurd h (Nat.not_lt_zero _)

/-- The command passes the common checks, and its draws are offered: it runs to an end of its own (R272, R276). -/
structure Runs (i : Instr) (s : State) : Prop where
  inst : instanceOk s i
  operands : operandsOk s i
  draws : drawsTaken s i ≤ s.draws.length

/-- The codes with which a command fails after the common checks (R271, R272). -/
def ownError : ErrCode → Bool
  | .config | .framing | .divZero => true
  | .none | .illegal | .state => false

/-! ### The ends of a command -/

/-- Everything a command can come to, with the state it leaves: an error of the common checks, a wait, an error of its own,
or success (R270-R278). -/
inductive Ends (i : Instr) (s : State) : State → Prop
  | noInstance (hinst : ¬ instanceOk s i) : Ends i s (complete .state s)
  | outOfRange (hinst : instanceOk s i) (hops : ¬ operandsOk s i) : Ends i s (complete .illegal s)
  | waits (hinst : instanceOk s i) (hdraws : s.draws.length < drawsTaken s i) : Ends i s s
  | fails {e : ErrCode} (hruns : Runs i s) (hi : i ≠ .init) (he : ownError e = true) : Ends i s (complete e s)
  | initFails (hi : i = .init) : Ends i s (complete .config (unconfigure (teardown s)))
  | finishes {u : State} (hruns : Runs i s) (hown : OwnWrites i s u) : Ends i s (complete .none u)

/-- A result is the end of the command i in the state s. -/
def EndsAs (i : Instr) (s : State) (r : Result) : Prop := ∃ t, r = .next t ∧ Ends i s t

section

variable {i : Instr} {s : State}

theorem endsAs_finish {u : State} (hruns : Runs i s) (hown : OwnWrites i s u) : EndsAs i s (finish u) :=
  ⟨_, finish_eq u, .finishes hruns hown⟩

theorem endsAs_raise {e : ErrCode} (hruns : Runs i s) (hi : i ≠ .init) (he : ownError e = true) : EndsAs i s (raise e s) :=
  ⟨_, raise_eq e s, .fails hruns hi he⟩

theorem endsAs_withInstance {body : Result} (hn : needsInstance i = true) (hr : needsRole i = none)
    (hbody : instanceOk s i → EndsAs i s body) : EndsAs i s (withInstance s body) := by
  have hiff := instanceOk_iff (s := s) hn hr
  obtain ⟨hc, h⟩ | ⟨hc, h⟩ := withInstance_cases (s := s) (body := body) rfl <;> rw [h]
  · exact ⟨_, raise_eq .state s, .noInstance (by simp [hiff, hc])⟩
  · exact hbody (hiff.2 hc)

theorem endsAs_withRole {d : Bool} {body : Result} (hn : needsInstance i = true) (hr : needsRole i = some d)
    (hbody : instanceOk s i → EndsAs i s body) : EndsAs i s (withRole d s body) := by
  have hiff := instanceOk_role_iff (s := s) hn hr
  obtain ⟨hbad, h⟩ | ⟨hc, hd, h⟩ := withRole_cases (d := d) (s := s) (body := body) rfl <;> rw [h]
  · refine ⟨_, raise_eq .state s, .noInstance fun hinst => ?_⟩
    obtain ⟨hc, hd⟩ := hiff.1 hinst
    simp [hc, hd] at hbad
  · exact hbody (hiff.2 ⟨hc, hd⟩)

theorem endsAs_withRange {ok : Bool} {body : Result} (hinst : instanceOk s i) (hok : ok = true ↔ operandsOk s i)
    (hbody : operandsOk s i → EndsAs i s body) : EndsAs i s (withRange ok s body) := by
  obtain ⟨hbad, h⟩ | ⟨hgood, h⟩ := withRange_cases (ok := ok) (s := s) (body := body) rfl <;> rw [h]
  · exact ⟨_, raise_eq .illegal s, .outOfRange hinst (by simp [← hok, hbad])⟩
  · exact hbody (hok.1 hgood)

theorem endsAs_withDraws {n : Nat} {body : List Word → State → Result} (hinst : instanceOk s i) (hn : drawsTaken s i = n)
    (hbody : n ≤ s.draws.length → EndsAs i s (body (s.draws.take n) { s with draws := s.draws.drop n })) :
    EndsAs i s (withDraws n s body) := by
  obtain ⟨hlt, h⟩ | ⟨hle, h⟩ := withDraws_cases (n := n) (s := s) (body := body) rfl <;> rw [h]
  · exact ⟨s, rfl, .waits hinst (hn ▸ hlt)⟩
  · exact hbody hle

end

/-! ### Every command -/

theorem execInit_ends (s : State) : EndsAs .init s (execInit s) := by
  by_cases hok : configOk s = true
  · exact ⟨_, execInit_of_ok hok,
      .finishes ⟨instanceOk_of_free rfl, trivial, Nat.zero_le _⟩ (ownWrites_init s).1⟩
  · exact ⟨_, execInit_of_invalid hok, .initFails rfl⟩

/-- The check of withElements is the operand range of GF.ADD and GF.MUL (R155, R156). -/
theorem elements_iff {fld : BitVec 2} {a b : Byte} :
    (fieldCodeOk fld && [a, b].all (Field.ofCode fld).holds) = true ↔
      fld ≠ 3#2 ∧ a.toNat < (Field.ofCode fld).size ∧ b.toNat < (Field.ofCode fld).size := by
  simp [fieldCodeOk, Field.holds]

theorem execGfAdd_ends (fld : BitVec 2) (a b : Byte) (s : State) : EndsAs (.gfAdd fld a b) s (execGfAdd fld a b s) :=
  have hinst : instanceOk s (.gfAdd fld a b) := instanceOk_of_free rfl
  endsAs_withRange hinst elements_iff fun hops =>
    endsAs_finish ⟨hinst, hops, Nat.zero_le _⟩ (ownWrites_result rfl _ s)

theorem execGfMul_ends (fld : BitVec 2) (a b : Byte) (s : State) : EndsAs (.gfMul fld a b) s (execGfMul fld a b s) :=
  have hinst : instanceOk s (.gfMul fld a b) := instanceOk_of_free rfl
  endsAs_withRange hinst elements_iff fun hops =>
    endsAs_finish ⟨hinst, hops, Nat.zero_le _⟩ (ownWrites_result rfl _ s)

theorem execGfInv_ends (fld : BitVec 2) (a : Byte) (s : State) : EndsAs (.gfInv fld a) s (execGfInv fld a s) := by
  have hinst : instanceOk s (.gfInv fld a) := instanceOk_of_free rfl
  refine endsAs_withRange hinst (by simp [operandsOk, fieldCodeOk, Field.holds]) fun hops => ?_
  have hruns : Runs (.gfInv fld a) s := ⟨hinst, hops, Nat.zero_le _⟩
  split
  · exact endsAs_raise hruns nofun rfl
  · exact endsAs_finish hruns (ownWrites_result rfl _ s)

theorem execGfAxpy_ends (coeff dst src : Byte) (s : State) :
    EndsAs (.gfAxpy coeff dst src) s (execGfAxpy coeff dst src s) :=
  endsAs_withInstance rfl rfl fun hinst =>
    endsAs_withRange hinst (by simp [operandsOk, Field.holds, and_assoc]) fun hops =>
      endsAs_finish ⟨hinst, hops, Nat.zero_le _⟩ (ownWrites_gfAxpy coeff dst src s _)

theorem execGenDense_ends (s : State) : EndsAs .genDense s (execGenDense s) :=
  endsAs_withInstance rfl rfl fun hinst =>
    endsAs_withDraws hinst rfl fun hdraws => endsAs_finish ⟨hinst, trivial, hdraws⟩ (ownWrites_genDense s _ _)

theorem execGenSparse_ends (s : State) : EndsAs .genSparse s (execGenSparse s) :=
  endsAs_withInstance rfl rfl fun hinst =>
    endsAs_finish ⟨hinst, trivial, Nat.zero_le _⟩ (ownWrites_genSparse s _)

theorem execEncWrite_ends (s : State) : EndsAs .encWrite s (execEncWrite s) := by
  refine endsAs_withRole rfl rfl fun hinst => ?_
  split
  · next hcoded =>
    have hn : drawsTaken s .encWrite = 0 := if_pos hcoded
    exact endsAs_finish ⟨hinst, trivial, hn ▸ Nat.zero_le _⟩ (ownWrites_encWrite s _ _ _ _ s.seedLast _ s.draws)
  next hcoded =>
  split
  · next hfmt =>
    have hn : drawsTaken s .encWrite = s.k := (if_neg hcoded).trans (if_pos hfmt)
    exact endsAs_withDraws hinst hn fun hdraws =>
      endsAs_finish ⟨hinst, trivial, hn ▸ hdraws⟩ (ownWrites_encWrite s _ _ _ s.cursor s.seedLast s.coded _)
  · next hfmt =>
    have hn : drawsTaken s .encWrite = 1 := (if_neg hcoded).trans (if_neg hfmt)
    exact endsAs_withDraws hinst hn fun hdraws =>
      endsAs_finish ⟨hinst, trivial, hn ▸ hdraws⟩ (ownWrites_encWrite s _ _ _ s.cursor _ s.coded _)

theorem execEncSetdens_ends (imm : BitVec 16) (s : State) : EndsAs (.encSetdens imm) s (execEncSetdens imm s) := by
  refine endsAs_withRole rfl rfl fun hinst => ?_
  have hruns : Runs (.encSetdens imm) s := ⟨hinst, trivial, Nat.zero_le _⟩
  split
  · exact endsAs_finish hruns (ownWrites_encSetdens imm s _)
  · exact endsAs_raise hruns nofun rfl

theorem execDecRead_ends (s : State) : EndsAs .decRead s (execDecRead s) := by
  refine endsAs_withRole rfl rfl fun hinst => ?_
  have hruns : Runs .decRead s := ⟨hinst, trivial, Nat.zero_le _⟩
  split
  · exact endsAs_finish hruns (ownWrites_readIgnored s)
  split
  · exact endsAs_raise hruns nofun rfl
  split
  · exact endsAs_raise hruns nofun rfl
  · next v _ => exact endsAs_finish hruns (ownWrites_readParsed v s)

theorem exec_ends (i : Instr) (s : State) : EndsAs i s (exec i s) := by
  cases i with
  | nop => exact endsAs_finish ⟨instanceOk_of_free rfl, trivial, Nat.zero_le _⟩ (ownWrites_refl .nop s)
  | init => exact execInit_ends s
  | gfAdd fld a b => exact execGfAdd_ends fld a b s
  | gfMul fld a b => exact execGfMul_ends fld a b s
  | gfInv fld a => exact execGfInv_ends fld a s
  | gfAxpy coeff dst src => exact execGfAxpy_ends coeff dst src s
  | genDense => exact execGenDense_ends s
  | genSparse => exact execGenSparse_ends s
  | encWrite => exact execEncWrite_ends s
  | encSetdens imm => exact execEncSetdens_ends imm s
  | decRead => exact execDecRead_ends s

/-- The next state of a command is one of its ends. -/
theorem ends_of_exec {i : Instr} {s t : State} (h : exec i s = .next t) : Ends i s t := by
  obtain ⟨u, hu, hends⟩ := exec_ends i s
  obtain rfl : u = t := Host.Outcome.next.inj (hu.symm.trans h)
  exact hends

/-! ### Completion, waiting and errors (R276-R278) -/

/-- `t` is a completed state, and beside the bit of its code it has the ERRFLAGS of `s` (R30, R278). -/
def Completed (s t : State) : Prop :=
  t.done = true ∧ t.busy = false ∧ t.pending = none ∧ (t.err = .none → t.errflags = s.errflags)
    ∧ (t.err ≠ .none → t.errflags = s.errflags ||| (1#32 <<< t.err.code))

theorem completed_complete {s u : State} (hflags : u.errflags = s.errflags) (e : ErrCode) : Completed s (complete e u) := by
  refine ⟨rfl, rfl, rfl, fun he => ?_, fun he => ?_⟩
  · exact (if_pos he).trans hflags
  · exact (if_neg he).trans (congrArg (flagSet · e.code) hflags)

theorem Ends.waits_or_completed {i : Instr} {s t : State} (h : Ends i s t) :
    (s.draws.length < drawsTaken s i ∧ t = s) ∨ Completed s t := by
  cases h with
  | noInstance _ => exact .inr (completed_complete rfl _)
  | outOfRange _ _ => exact .inr (completed_complete rfl _)
  | waits _ hdraws => exact .inl ⟨hdraws, rfl⟩
  | fails _ _ _ => exact .inr (completed_complete rfl _)
  | initFails _ => exact .inr (completed_complete rfl _)
  | finishes _ hown => exact .inr (completed_complete hown.errflags _)

/-- Settles O14: every end of a command but the wait is a completion. -/
theorem commandsCompleteOrWait : Obligations.CommandsCompleteOrWait := by
  intro i s
  obtain ⟨t, hexec, hends⟩ := exec_ends i s
  obtain ⟨hdraws, rfl⟩ | hdone := hends.waits_or_completed
  · exact .inl ⟨hdraws, hexec⟩
  · exact .inr ⟨t, hexec, hdone⟩

/-- Settles O15: such a command fails no common check, and every other end but the wait takes its draws. -/
theorem commandsWaitForDraws : Obligations.CommandsWaitForDraws := by
  intro i s hinst hdraws
  obtain ⟨t, hexec, hends⟩ := exec_ends i s
  cases hends with
  | noInstance hno => exact absurd hinst hno
  | outOfRange _ hops => exact absurd (operandsOk_of_draws hdraws) hops
  | waits _ _ => exact hexec
  | fails hruns _ _ => exact absurd hdraws (Nat.not_lt.2 hruns.draws)
  | initFails hi => subst hi; exact absurd hdraws (Nat.not_lt_zero _)
  | finishes hruns _ => exact absurd hdraws (Nat.not_lt.2 hruns.draws)

/-- Settles O16: an error completes the state it is raised on, which only INIT has written. -/
theorem errorsCommitNothing : Obligations.ErrorsCommitNothing := by
  intro i s t hnone hexec herr
  cases ends_of_exec hexec with
  | noInstance hinst => exact ⟨fun _ => rfl, fun hi => absurd (instanceOk_of_free (hi ▸ rfl)) hinst⟩
  | outOfRange _ hops => exact ⟨fun _ => rfl, fun hi => absurd (by subst hi; trivial) hops⟩
  | waits _ _ => exact absurd hnone herr
  | fails _ hne _ => exact ⟨fun _ => rfl, fun hi => absurd hi hne⟩
  | initFails hi => exact ⟨fun hne => absurd hi hne, fun _ => rfl⟩
  | finishes _ _ => exact absurd rfl herr

theorem ownError_ne {e : ErrCode} (h : ownError e = true) : e ≠ .state ∧ e ≠ .illegal := by
  constructor <;> (rintro rfl; cases h)

/-- After the common checks no command fails with STATE or ILLEGAL. -/
theorem Ends.err_of_checked {i : Instr} {s t : State} (h : Ends i s t) (hinst : instanceOk s i) (hops : operandsOk s i)
    (hnone : s.err = .none) : t.err ≠ .state ∧ t.err ≠ .illegal := by
  cases h with
  | noInstance hno => exact absurd hinst hno
  | outOfRange _ hbad => exact absurd hops hbad
  | waits _ _ => rw [hnone]; exact ⟨nofun, nofun⟩
  | fails _ _ he => exact ownError_ne he
  | initFails _ => exact ⟨nofun, nofun⟩
  | finishes _ _ => exact ⟨nofun, nofun⟩

/-- Settles O17: the first common check that fails names the error, and no later end uses its code. -/
theorem commonChecksDecideTheError : Obligations.CommonChecksDecideTheError := by
  intro i s
  obtain ⟨t, hexec, hends⟩ := exec_ends i s
  refine ⟨fun hno => ?_, fun hinst hbad => ?_, fun hinst hops hnone => ⟨t, hexec, hends.err_of_checked hinst hops hnone⟩⟩
  · cases hends with
    | noInstance _ => exact hexec
    | outOfRange hinst _ | waits hinst _ => exact absurd hinst hno
    | fails hruns _ _ | finishes hruns _ => exact absurd hruns.inst hno
    | initFails hi => exact absurd (instanceOk_of_free (hi ▸ rfl)) hno
  · cases hends with
    | noInstance hno => exact absurd hinst hno
    | outOfRange _ _ => exact hexec
    | waits _ hdraws => exact absurd (operandsOk_of_draws hdraws) hbad
    | fails hruns _ _ | finishes hruns _ => exact absurd hruns.operands hbad
    | initFails hi => exact absurd (by subst hi; trivial) hbad

theorem Ends.sameIn {i : Instr} {s t : State} (h : Ends i s t) {part : Part} (hpart : part ∉ mayWrite i) :
    sameIn s t part := by
  cases h with
  | noInstance _ | outOfRange _ _ | fails _ _ _ => exact sameIn_complete.2 (sameIn_refl s part)
  | waits _ _ => exact sameIn_refl s part
  | initFails hi => subst hi; exact sameIn_complete.2 ((ownWrites_init s).2.parts part hpart)
  | finishes _ hown => exact sameIn_complete.2 (hown.parts part hpart)

/-- Settles O18: each end of a command keeps to its row of R91, and the engine to its frame. -/
theorem commandsWriteOnlyTheirParts : Obligations.CommandsWriteOnlyTheirParts := by
  intro i s t hexec
  obtain ⟨hparams, hrst, hinbox, hresp, hctrl, hcfg0, hsymbols, hsymsize, hdensity, hseed⟩ := exec_engineFrame i s t hexec
  exact ⟨fun part hpart => (ends_of_exec hexec).sameIn hpart, hparams, hrst, hinbox, hresp, hctrl, hcfg0, hsymbols,
    hsymsize, hdensity, hseed⟩

/-! ### Acceptance and the interrupt (R275, R284) -/

/-- Settles O53: an unlocked write of CMD is `accept`. -/
theorem commandAcceptance : Obligations.CommandAcceptance := by
  intro s w hpend
  rw [hostWrite_unlocked (r := .cmd) (by decide) rfl rfl (.inl hpend)]
  exact ⟨rfl, rfl, rfl, rfl⟩

theorem exec_irq {i : Instr} {s t : State} (hpend : s.pending ≠ none) (hexec : exec i s = .next t)
    (hidle : t.pending = none) : t.irq = s.ctrl.getLsbD 0 := by
  obtain ⟨_, rfl⟩ | ⟨hdone, _⟩ := (ends_of_exec hexec).waits_or_completed
  · exact absurd hidle hpend
  · rw [State.irq, hdone, (exec_engineFrame i s t hexec).ctrl, Bool.true_and]

theorem hostWrite_ctrl_irq (s : State) (v : Word) : (hostWrite s 0x0C 4 v).1.irq = (s.done && v.getLsbD 0) := by
  have hbit : (v &&& ctrlMask).getLsbD 0 = v.getLsbD 0 := by simp [ctrlMask]
  rw [hostWrite_unlocked (r := .ctrl) (by decide) rfl rfl (.inr rfl)]
  exact congrArg (s.done && ·) hbit

theorem hostWrite_status_irq (s : State) {v : Word} (hv : v.getLsbD 1 = true) :
    (hostWrite s 0x14 4 v).1.irq = false := by
  rw [hostWrite_unlocked (r := .status) (by decide) rfl rfl (.inr rfl)]
  simp [regWrite, State.irq, hv]

/-- Settles O54: a completion sets DONE and keeps CTRL; the host's two writes reach the two bits of `irq`. -/
theorem irqFollowsDoneAndEnable : Obligations.IrqFollowsDoneAndEnable :=
  ⟨fun _ => rfl, fun _ _ _ => exec_irq, hostWrite_ctrl_irq, fun s _ => hostWrite_status_irq s, rfl, fun _ _ => rfl⟩

end Sys2Proof.Machine
